-- ==== Sys2Proof/Word.lean ====
section
/-! DEFINITION. The one word type of this hardware, a byte (spec/00_scope.md R14), and the bit value of a pin. -/

namespace Sys2Proof

/-- A byte: 8 bits, bit 0 the least significant (00 R14). -/
abbrev Byte := BitVec 8

/-- A bit: `false` is 0 ("low"), `true` is 1 ("high", "assert") (10 R31). -/
abbrev Bit := Bool

end Sys2Proof
end

