-- ==== Sys2Proof/Syntax.lean ====
section
/-! DEFINITION. The instructions: one constructor per row of spec/opcode_table.json, with their operand types.
Format H is what the host sends, format L the line, format C the COG commands, format E the interface events (30 R90). -/

namespace Sys2Proof

/-- The five GPIO lines (20 R65, 30 R104). -/
inductive Pin where
  | panelOn | border | discharge | reset | busy
deriving DecidableEq, Repr, Inhabited

/-- The four lines the controller drives (10 R31); `busy` is not one of them (44 R211). -/
inductive OutPin where
  | panelOn | border | discharge | reset
deriving DecidableEq, Repr, Inhabited

/-- A pin's direction (30 R104). -/
inductive PinMode where
  | input | output
deriving DecidableEq, Repr, Inhabited

/-- The polarity of a line (30 R99). -/
inductive Polarity where
  | inverse | normal
deriving DecidableEq, Repr, Inhabited

/-- The row operand of `Line`: the sentinel `NoRow` or a natural (30 R99). -/
inductive LineRow where
  | noRow
  | row (r : Nat)
deriving DecidableEq, Repr, Inhabited

/-- Every row of the opcode table. -/
inductive Instr where
  -- format H: host commands (30 R91)
  | openPanel (sel : Nat)
  | close
  | setTemperature (celsius : Int)
  | status
  | begin
  | endPower
  | clear
  | paint (image : List Byte)
  -- format L: one run of the Line procedure (43 R190)
  | lineData (row : LineRow) (data : Option (List Byte)) (fixed : Byte) (pol : Polarity) (border : Byte)
  -- format C: COG commands (30 R100)
  | readId
  | oeDisable
  | readBreakage
  | powerSaving
  | channelSelect (mask : List Byte)
  | oscillatorOn
  | powerSetting
  | vcomLevel
  | pumpPositive
  | pumpNegative
  | pumpVcom
  | readDcdc
  | latchResetOn
  | powerOffPositive
  | powerOffVcom
  | powerOffAllPumps
  | oscillatorOff
  | dischargeOn
  | dischargeOff
  | oeToPanel
  -- format E: interface events (30 R104)
  | gpioConfigure (pin : Pin) (mode : PinMode)
  | gpioWrite (pin : OutPin) (bit : Bit)
  | gpioRead (pin : Pin)
  | xportEnable
  | xportDisable
  | xportSend (bytes : List Byte)
  | xportRead (command : List Byte) (n : Nat)
  | delayMs (n : Nat)
  | delayUs (n : Nat)
  | timerCreate
  | timerArm (ms : Nat)
  | timerQuery
deriving DecidableEq, Repr, Inhabited

/-! ## Encoded things (30 R90) -/

/-- The operand of a host command (30 R91). -/
inductive Operand where
  | none
  | selector (sel : Nat)
  | celsius (t : Int)
  | image (bytes : List Byte)
deriving DecidableEq, Repr, Inhabited

/-- A host command as the host sends it: the pair `(op, operand)` (30 R91). -/
structure HostWord where
  op : BitVec 3
  operand : Operand
deriving DecidableEq, Repr, Inhabited

/-- The 17 COG write commands (30 R100). -/
inductive CogWriteCmd where
  | oeDisable | powerSaving | channelSelect | oscillatorOn | powerSetting | vcomLevel
  | pumpPositive | pumpNegative | pumpVcom | latchResetOn | powerOffPositive | powerOffVcom
  | powerOffAllPumps | oscillatorOff | dischargeOn | dischargeOff | oeToPanel
deriving DecidableEq, Repr, Inhabited

/-- The 3 COG read commands (30 R100). -/
inductive CogReadCmd where
  | readId | readBreakage | readDcdc
deriving DecidableEq, Repr, Inhabited

/-- The 20 COG commands by name (30 R100). -/
inductive CogName where
  | write (c : CogWriteCmd)
  | read (c : CogReadCmd)
deriving DecidableEq, Repr, Inhabited

/-- The names of the 12 events (30 R104). -/
inductive EventName where
  | gpioConfigure | gpioWrite | gpioRead | xportEnable | xportDisable | xportSend | xportRead
  | delayMs | delayUs | timerCreate | timerArm | timerQuery
deriving DecidableEq, Repr, Inhabited

/-- An argument of an event (30 R104). -/
inductive Arg where
  | pin (p : Pin)
  | mode (m : PinMode)
  | bit (b : Bit)
  | bytes (bs : List Byte)
  | nat (n : Nat)
deriving DecidableEq, Repr, Inhabited

/-- An encoded thing of one of the four formats (30 R90): H is the pair `(op, operand)`; L is written
`Line(row, data, fixed, pol, border)` (30 R111), since its operands "are not encoded on any wire" (30 R99); C is a command
name and data bytes; E is an event name and its arguments. -/
inductive Code where
  | host (w : HostWord)
  | line (row : LineRow) (data : Option (List Byte)) (fixed : Byte) (pol : Polarity) (border : Byte)
  | cog (name : CogName) (data : List Byte)
  | event (name : EventName) (args : List Arg)
deriving DecidableEq, Repr, Inhabited

/-- The line payload of format L, field by field (30 R96). -/
structure LinePayload where
  cmd : Byte
  border : Byte
  odd : List Byte
  scan : List Byte
  even : List Byte
deriving DecidableEq, Repr, Inhabited

end Sys2Proof
end

