-- ==== Sys2Proof/Config.lean ====
section
/-! DEFINITION. What a platform fixes: the size classes and profile types, the configuration record `Cfg` of the open
parameters (spec/00_scope.md R8) with its constraints, COGFRAME, and the free values the environment may answer with. -/

namespace Sys2Proof

/-- The three size classes (00 R6). -/
inductive SizeClass where
  | s144 | s200 | s270
deriving DecidableEq, Repr, Inhabited

/-- The temperature band 0, 1 or 2 (40 R126). -/
abbrev Band := Fin 3

/-- The PanelProfile registers, six fields (10 R21). -/
structure PanelProfile where
  sizeClass : SizeClass
  linesPerDisplay : Nat
  dotsPerLine : Nat
  bytesPerLine : Nat
  bytesPerScan : Nat
  channelSelect : List Byte
deriving DecidableEq, Repr, Inhabited

/-- A CompensationProfile, nine naturals (10 R22). -/
structure CompProfile where
  stage1Repeat : Nat
  stage1Step : Nat
  stage1Block : Nat
  stage2Repeat : Nat
  stage2T1 : Nat
  stage2T2 : Nat
  stage3Repeat : Nat
  stage3Step : Nat
  stage3Block : Nat
deriving DecidableEq, Repr, Inhabited

/-- The constraint on one profile of `COMP` (00 R8, 42 R178): `repeat >= 1`, `step >= 1`, `block >= step` in stages 1 and 3. -/
def CompProfile.ok (c : CompProfile) : Bool :=
  decide (1 ≤ c.stage1Repeat) && decide (1 ≤ c.stage1Step) && decide (c.stage1Step ≤ c.stage1Block) &&
  decide (1 ≤ c.stage3Repeat) && decide (1 ≤ c.stage3Step) && decide (c.stage3Step ≤ c.stage3Block)

/-- The three profiles of one size class, one per band. -/
structure CompRow where
  band0 : CompProfile
  band1 : CompProfile
  band2 : CompProfile
deriving DecidableEq, Repr, Inhabited

/-- The parameter `COMP`: nine profiles (00 R8). -/
structure CompTable where
  s144 : CompRow
  s200 : CompRow
  s270 : CompRow
deriving DecidableEq, Repr, Inhabited

/-- The rounding of `(L - row - 1) / 4` at a negative numerator (00 R8, 43 R196). -/
inductive NegDiv where
  | floor | trunc
deriving DecidableEq, Repr, Inhabited

/-- `PD_BORDER[0..2]`, the border bytes of the three dummy lines (41 R151). -/
structure PdBorder where
  b0 : Byte
  b1 : Byte
  b2 : Byte
deriving DecidableEq, Repr, Inhabited

/-- The configuration record `cfg` of 00 R8, all of it but COGFRAME (see `CogFrame`). -/
structure Cfg where
  comp : CompTable
  chsel144 : List Byte
  chsel270 : List Byte
  cmdLine : Byte
  breakageMask : Byte
  dcdcMask : Byte
  pdBorder : PdBorder
  scanNegDiv : NegDiv
deriving DecidableEq, Repr, Inhabited

/-- The channel-select mask the source gives, that of S200 (00 R7). -/
def chsel200 : List Byte := [0x72, 0x00, 0x00, 0x00, 0x00, 0x01, 0xff, 0xe0, 0x00]

/-- All nine profiles meet the constraint. -/
def CompTable.ok (t : CompTable) : Bool :=
  t.s144.band0.ok && t.s144.band1.ok && t.s144.band2.ok &&
  t.s200.band0.ok && t.s200.band1.ok && t.s200.band2.ok &&
  t.s270.band0.ok && t.s270.band1.ok && t.s270.band2.ok

/-- The constraints of 00 R8: sane `COMP`; masks of 9 bytes, pairwise distinct; non-zero health masks. -/
def Cfg.ok (c : Cfg) : Bool :=
  c.comp.ok &&
  decide (c.chsel144.length = 9) && decide (c.chsel270.length = 9) &&
  decide (c.chsel144 ≠ c.chsel270) && decide (c.chsel144 ≠ chsel200) && decide (c.chsel270 ≠ chsel200) &&
  decide (c.breakageMask ≠ 0) && decide (c.dcdcMask ≠ 0)

/-- A configuration that meets the constraints. The field's default only shows that one exists (a Lean type must be
inhabited to be declared opaque); no constant of the model is that value and no claim can use it. -/
structure Platform where
  cfg : Cfg :=
    let p : CompProfile := ⟨1, 1, 1, 0, 0, 0, 1, 1, 1⟩
    let r : CompRow := ⟨p, p, p⟩
    ⟨⟨r, r, r⟩, List.replicate 9 0, List.replicate 9 1, 0, 1, 1, ⟨0, 0, 0⟩, .floor⟩
  ok : cfg.ok = true := by decide
deriving Inhabited

/-- The platform's configuration, which `State.reset` carries: any value that meets the constraints of 00 R8 and no other
is known (DESIGN CHOICE, assumption 2; safe: nothing can be proved of a parameter but its constraint). -/
opaque Config.platform : Platform

/-! ## COGFRAME -/

/-- How a read travels: strings to send, then one `(command_bytes, n)` pair, and the place of the register's byte in the
response (30 R103, R102). -/
structure ReadFrame where
  sends : List (List Byte)
  command : List Byte
  count : Nat
  pick : Nat
deriving DecidableEq, Repr, Inhabited

/-- A COGFRAME that meets 30 R103: a write is a non-empty list of non-empty strings, CHANNEL_SELECT's nine bytes appear
verbatim, in order and contiguous, and a read asks for at least one byte and picks one of them. The defaults only show that
one exists. -/
structure CogFrame where
  write : CogWriteCmd → List Byte → List (List Byte) := fun _ d => [0 :: d]
  read : CogReadCmd → ReadFrame := fun _ => ⟨[], [0], 1, 0⟩
  write_ne : ∀ c d, write c d ≠ [] := by intro c d; simp
  write_strings_ne : ∀ c d, ∀ s ∈ write c d, s ≠ [] := by intro c d s h; simp at h; simp [h]
  channelSelect_verbatim : ∀ d, d.length = 9 → d <:+: (write .channelSelect d).flatten := by
    intro d _; exact ⟨[0], [], by simp⟩
  read_count : ∀ c, (read c).pick < (read c).count := by intro c; decide
  read_strings_ne : ∀ c, ∀ s ∈ (read c).sends, s ≠ [] := by intro c s h; simp at h
deriving Inhabited

/-- The platform's COGFRAME (00 R8): opaque, so only the conditions of 30 R103 are known of it (assumption 7). -/
opaque Config.cogframe : CogFrame

/-! ## Free values: the oracle's answers when nothing is listed (00 R12, 44 R222; assumption 6) -/

/-- The four values of `status` (10 R24). -/
inductive Status where
  | ok | unsupportedCOG | panelBroken | dcFailed
deriving DecidableEq, Repr, Inhabited

/-- A free bit or Bool: the answer of draw `n`. -/
opaque Config.freeBit : Nat → Bool
/-- A free byte: the answer of draw `n`. -/
opaque Config.freeByte : Nat → Byte
/-- A free natural: the answer of draw `n`. -/
opaque Config.freeNat : Nat → Nat
/-- A free status value, for STATUS before any BEGIN or END (10 R24): the answer of draw `n`. -/
opaque Config.freeStatus : Nat → Status

end Sys2Proof
end

