-- ==== Sys2Proof/Machine/State.lean ====
section
/-! DEFINITION. The machine's state as plain data (spec/10_state.md R20), the event alphabet (30 R104), the reasons a step can
stop, and the state after hardware reset (10 R37, 70 R290). -/

namespace Sys2Proof.Machine

/-! ## Memory -/

/-- A byte space as the bytes that hold a value: (address, byte), addresses strictly rising. An address that is not listed
holds no value (10 R20), so no byte a list can hold equals what an unlisted address reads as. -/
abbrev Memory := List Host.Cell

/-! ## Events -/

/-- The event alphabet, each `ask` event with its answer (30 R104), and the two abstract events that stand for the transport
events of a COG command (44 R224, R225; assumption 7). -/
inductive Event where
  | gpioConfigure (pin : Pin) (mode : PinMode)
  | gpioWrite (pin : OutPin) (bit : Bit)
  | gpioRead (pin : Pin) (answer : Bit)
  | xportEnable
  | xportDisable
  | xportSend (bytes : List Byte)
  | xportRead (command : List Byte) (n : Nat) (answer : List Byte)
  | delayMs (n : Nat)
  | delayUs (n : Nat)
  | timerCreate (ok : Bool)
  | timerArm (ms : Nat)
  | timerQuery (rem : Nat)
  | cogWrite (c : CogWriteCmd) (data : List Byte)
  | cogRead (c : CogReadCmd) (answer : Byte)
deriving DecidableEq, Repr, Inhabited

/-! ## Control -/

/-- The three failure kinds of BEGIN and END (60 R260, class "status"). -/
inductive FailKind where
  | unsupportedCOG | panelBroken | dcFailed
deriving DecidableEq, Repr, Inhabited

/-- The Power Sequencer's state (10 R25). -/
inductive Pwr where
  | off | poweringUp | verifying | ready
  | failed (kind : FailKind)
  | poweringDown
deriving DecidableEq, Repr, Inhabited

/-- Which of the two frame commands runs (42 R173). -/
inductive FrameOp where
  | clear | paint
deriving DecidableEq, Repr, Inhabited

/-- The block-scan stages (42 R174). -/
inductive Stage where
  | one | three
deriving DecidableEq, Repr, Inhabited

/-- The two timed passes of a stage 2 iteration: `0xff` for `t1`, then `0xaa` for `t2` (42 R179). -/
inductive Half where
  | first | second
deriving DecidableEq, Repr, Inhabited

/-- The control state (10 R27), in place of a program counter: `idle`, or the phase the running operation is in. `k` counts
the events of a straight piece of pseudocode from 0; the other arguments are the working registers of 10 R26. -/
inductive Ctl where
  | idle
  /-- `PU.pins` (41 R142) -/
  | puPins (k : Nat)
  /-- `PU.busy_poll`, at the read of `busy` (41 R143) -/
  | puBusy
  /-- `PU.busy_poll`, at the wait of 10 microseconds (41 R143) -/
  | puWait
  /-- `VF.id`, at the first or the second read (41 R144) -/
  | vfId (second : Bool)
  /-- `VF.breakage` (41 R146) -/
  | vfBreakage (k : Nat)
  /-- `VF.init` (41 R147) -/
  | vfInit (k : Nat)
  /-- `VF.pump(attempt)` (41 R148) -/
  | vfPump (attempt k : Nat)
  /-- `RD.finish` (41 R149) -/
  | rdFinish (k : Nat)
  /-- `PD.flush` (41 R151) -/
  | pdFlush (k : Nat)
  /-- `PD.check` (41 R152) -/
  | pdCheck (k : Nat)
  /-- `PD.regs` (41 R154) -/
  | pdRegs (k : Nat)
  /-- `PD.final` (41 R155) -/
  | pdFinal (k : Nat)
  /-- `PD.pulses(pulse)` (41 R155) -/
  | pdPulses (pulse k : Nat)
  /-- `S1(n, w, offset)` and `S3(n, w, offset)` (42 R174) -/
  | scan (op : FrameOp) (stage : Stage) (n : Nat) (w : Int) (offset : Nat)
  /-- `S2(i, half, _)`, at the arming of the timer (42 R180) -/
  | passArm (op : FrameOp) (i : Nat) (half : Half)
  /-- `S2(i, half, row)`, at a line of a sweep (42 R180) -/
  | passRow (op : FrameOp) (i : Nat) (half : Half) (row : Nat)
  /-- `S2(i, half, _)`, at the query of the timer (42 R180) -/
  | passQuery (op : FrameOp) (i : Nat) (half : Half)
deriving DecidableEq, Repr, Inhabited

/-- The position inside the Line procedure after its first event (43 R190). -/
inductive LinePhase where
  | send | outputEnable | disable
deriving DecidableEq, Repr, Inhabited

/-! ## Registers -/

/-- The four pin latches, `none` where no `GpioWrite` has been emitted yet (10 R31). -/
structure PinLatches where
  panelOn : Option Bit
  border : Option Bit
  discharge : Option Bit
  reset : Option Bit
deriving DecidableEq, Repr, Inhabited

/-- The sampled values (10 R28). -/
structure Sampled where
  id1 : Option Byte
  id2 : Option Byte
  brk : Option Byte
  dc : Option Byte
  rem : Option Nat
  busyS : Option Bit
deriving DecidableEq, Repr, Inhabited

/-- No sampled value is held (10 R28: "None of them has a reset value"). -/
def Sampled.none : Sampled := ⟨Option.none, Option.none, Option.none, Option.none, Option.none, Option.none⟩

/-! ## The host's side and the environment's side (the model's own fields) -/

/-- What a host command returns (30 R93). -/
inductive HostResult where
  | opened | unsupportedSize | allocationFailed
  | status (s : Status)
deriving DecidableEq, Repr, Inhabited

/-- The environment's answers not yet asked for, one list per kind of question (44 R222 (a)), and how many answers have been
drawn. Where a list is empty the answer is a free value of `Config` applied to `draws`. -/
structure Oracle where
  busy : List Bit
  cog : List Byte
  xport : List Byte
  timer : List Nat
  timerCreate : List Bool
  bufferAlloc : List Bool
  rowL : List Byte
  status : List Status
  draws : Nat
deriving DecidableEq, Repr, Inhabited

/-- The state: the elements of 10 R20, then the image space, then the model's own fields. -/
structure State where
  /-- 10 R23 -/
  handleValid : Bool
  /-- 10 R21 -/
  profile : Option PanelProfile
  /-- 10 R22 -/
  band : Option Band
  /-- 10 R22 -/
  comp : Option CompProfile
  /-- 10 R22 -/
  compValid : Bool
  /-- 10 R24 -/
  status : Option Status
  /-- 10 R25 -/
  pwr : Pwr
  /-- 10 R25 -/
  fromFailed : Bool
  /-- 10 R31 -/
  pinOut : PinLatches
  /-- 10 R30 -/
  xportEn : Option Bool
  /-- 10 R29 -/
  timerValid : Bool
  /-- the number of bytes of `LB` (10 R32) -/
  lbSize : Nat
  /-- `LB` (10 R32) -/
  lb : Memory
  /-- 10 R27, R26 -/
  ctl : Ctl
  /-- the position inside the Line procedure, none when no Line runs (10 R27) -/
  line : Option LinePhase
  /-- 10 R28 -/
  sampled : Sampled
  /-- 10 R33 -/
  trace : List Event
  /-- `IMG`, the host's image (20 R62) -/
  img : Memory
  /-- the configuration record of 00 R8; no step changes it -/
  cfg : Cfg
  /-- the host's commands not yet issued -/
  hostQ : List HostWord
  /-- the result of the host command issued last, none where it returns nothing -/
  result : Option HostResult
  /-- the environment's answers -/
  oracle : Oracle
deriving DecidableEq, Repr, Inhabited

/-- Right after hardware reset (10 R20's column "value after hardware reset", 10 R37, 70 R290). The model's own fields:
assumptions 2 to 6. -/
def State.reset : State where
  handleValid := false
  profile := none
  band := none
  comp := none
  compValid := false
  status := none
  pwr := .off
  fromFailed := false
  pinOut := ⟨none, none, none, none⟩
  xportEn := none
  timerValid := false
  lbSize := 0
  lb := []
  ctl := .idle
  line := none
  sampled := Sampled.none
  trace := []
  img := []
  cfg := Config.platform.cfg
  hostQ := []
  result := none
  oracle := ⟨[], [], [], [], [], [], [], [], 0⟩

/-! ## The reasons a step can stop -/

/-- The elements of 10 R20 whose reading without a value is refused. -/
inductive Element where
  | profile | comp | lb | id2 | brk | dc | rem | busyS
deriving DecidableEq, Repr, Inhabited

/-- The machine stops with a fault: an access outside a byte space, or a control position outside the pseudocode. No step
from a state that runs from reset reach ends so. -/
inductive Fault where
  /-- raised by LINE_DATA where the payload does not fit `LB`; the address does not exist (10 R32, 20 R68). Safe. -/
  | lbOutOfRange
  /-- raised by the fetch of an image line where a byte of the row is outside `IMG` (20 R62, R68). Safe. -/
  | imgOutOfRange
  /-- raised by the sequencer where `ctl` names an event past the end of its phase; `ctl` has no such position (10 R27). Safe. -/
  | ctlOutOfRange
deriving DecidableEq, Repr, Inhabited

/-- The command or step is given no meaning: no event, no state change, no result (60 R280). -/
inductive Refusal where
  /-- raised by every host command but OPEN when no handle exists (30 R108). Safe. -/
  | noHandle
  /-- raised by OPEN when a handle exists (30 R108). Safe. -/
  | alreadyOpen
  /-- raised by PAINT with an image of the wrong length (30 R108, 20 R68). Safe. -/
  | badImageLength
  /-- raised by CLEAR and PAINT when no compensation profile is selected (30 R108, 42 R183). Safe. -/
  | noCompensation
  /-- raised by every host command issued while an operation runs (30 R108). Safe. -/
  | busy
  /-- raised where a rule reads an element that holds no value: "a rule that reads an element holding no value is refused with
  reason `ReadOfUnwritten(name)`" (10 R20, R37, R39; 60 R280). Safe. -/
  | readOfUnwritten (e : Element)
  /-- raised by LINE_DATA when `data` is present and not `bytes_per_line` bytes long (43 R190). Safe. -/
  | badRowLength
  /-- raised by CLEAR and PAINT when the selected profile breaks the constraint on COMP: "a model must reject such a `COMP`
  rather than run it" (42 R178). Safe. -/
  | badCompensation
  /-- raised by a step when the host's word is no command: its operand is not of the kind its `op` takes (30 R91). Safe. -/
  | illFormedCommand
  /-- raised by `exec`'s arm of an instruction without a meaning (none is left). Safe. -/
  | notModelled (mnemonic : String)
deriving DecidableEq, Repr, Inhabited

/-- The outcome of an instruction or a step. -/
abbrev Result := Host.Outcome State Fault Refusal

end Sys2Proof.Machine
end

