-- ==== Sys2Proof/Machine/Flags.lean ====
section
/-! DEFINITION. The conditions the controller tests on sampled values (spec/10_state.md R28), the status values of the failure
kinds (60 R260) and the numeric codes the host sees (30 R93). -/

namespace Sys2Proof.Machine

/-- `id_ok = (id2 & 0x0f) == 0x02` (10 R28, 41 R145). -/
def idOk (id2 : Byte) : Bool := (id2 &&& 0x0f) == 0x02

/-- `brk_ok = (brk & BREAKAGE_MASK) != 0` (10 R28, 41 R146). -/
def brkOk (cfg : Cfg) (brk : Byte) : Bool := (brk &&& cfg.breakageMask) != 0

/-- `dc_ok = (dc & DCDC_MASK) != 0` (10 R28, 41 R148, R153). -/
def dcOk (cfg : Cfg) (dc : Byte) : Bool := (dc &&& cfg.dcdcMask) != 0

/-- The timer has expired: "query remaining time (0 ⇒ expired)" (44 R221). -/
def expired (rem : Nat) : Bool := rem == 0

/-- The status value a failure kind is recorded as (60 R260). -/
def statusOf : FailKind → Status
  | .unsupportedCOG => .unsupportedCOG
  | .panelBroken => .panelBroken
  | .dcFailed => .dcFailed

/-- The status codes (30 R93). -/
def statusCode : Status → Nat
  | .ok => 0
  | .unsupportedCOG => 1
  | .panelBroken => 2
  | .dcFailed => 3

/-- The code a command returns to the host: OPEN's result code or STATUS's status code (30 R93). -/
def resultCode : HostResult → Nat
  | .opened => 0
  | .unsupportedSize => 1
  | .allocationFailed => 2
  | .status s => statusCode s

end Sys2Proof.Machine
end

