-- ==== Sys2Proof/Machine/Profile.lean ====
section
/-! DEFINITION. The Panel Profile Resolver and the Compensation Table (spec/40_profile_and_host.md R121, R125, R126). -/

namespace Sys2Proof.Machine

/-- `dots_per_line` (00 R6). -/
def dotsPerLine : SizeClass → Nat
  | .s144 => 128
  | .s200 => 200
  | .s270 => 264

/-- `lines_per_display` (00 R6). -/
def linesPerDisplay : SizeClass → Nat
  | .s144 => 96
  | .s200 => 96
  | .s270 => 176

/-- `bytes_per_line = dots_per_line/8` (00 R6). -/
def bytesPerLine (c : SizeClass) : Nat := dotsPerLine c / 8

/-- `bytes_per_scan = lines_per_display/4` (00 R6). -/
def bytesPerScan (c : SizeClass) : Nat := linesPerDisplay c / 4

/-- The channel-select mask of a size class (00 R7). -/
def channelMask (cfg : Cfg) : SizeClass → List Byte
  | .s144 => cfg.chsel144
  | .s200 => chsel200
  | .s270 => cfg.chsel270

/-- The profile of a size class: a row of 00 R6 with its mask of 00 R7 (40 R121). -/
def profileOf (cfg : Cfg) (c : SizeClass) : PanelProfile where
  sizeClass := c
  linesPerDisplay := linesPerDisplay c
  dotsPerLine := dotsPerLine c
  bytesPerLine := bytesPerLine c
  bytesPerScan := bytesPerScan c
  channelSelect := channelMask cfg c

/-- The size class a selector names (30 R92). -/
def sizeOfSelector : Nat → Option SizeClass
  | 0 => some .s144
  | 1 => some .s200
  | 2 => some .s270
  | _ => none

/-- `Resolve(sel)` (40 R121). -/
def resolve (cfg : Cfg) (sel : Nat) : Option PanelProfile :=
  (sizeOfSelector sel).map (profileOf cfg)

/-- The size of the scratch line buffer (10 R32). -/
def scratchSize (p : PanelProfile) : Nat := 2 * p.bytesPerLine + p.bytesPerScan + 3

/-- The length of the line payload (43 R191). -/
def payloadLength (p : PanelProfile) : Nat := 2 * p.bytesPerLine + p.bytesPerScan + 2

/-- The length of the image of PAINT (20 R68). -/
def imageLength (p : PanelProfile) : Nat := p.bytesPerLine * p.linesPerDisplay

/-- `Band(t)` (40 R126). -/
def bandOf (t : Int) : Band := if t < 10 then 0 else if t ≤ 40 then 1 else 2

/-- One size class's row of the compensation table. -/
def compRow (cfg : Cfg) : SizeClass → CompRow
  | .s144 => cfg.comp.s144
  | .s200 => cfg.comp.s200
  | .s270 => cfg.comp.s270

/-- `COMP(size_class, band)` (40 R125). -/
def compOf (cfg : Cfg) (c : SizeClass) (b : Band) : CompProfile :=
  if b = 0 then (compRow cfg c).band0 else if b = 1 then (compRow cfg c).band1 else (compRow cfg c).band2

end Sys2Proof.Machine
end

