-- ==== Sys2Proof/Machine/Ops.lean ====
section
/-! DEFINITION. The named operations over memory, the trace, the pins, the oracle and the control state, and the failure path
`raise Fail(kind)` with the return from it (spec/60_exceptions.md R265). -/

namespace Sys2Proof.Machine

/-! ## Memory: one byte per access (20 R69) -/

/-- The byte an address holds, none where it holds no value (10 R20). -/
def Memory.read : Memory → Nat → Option Byte
  | [], _ => none
  | (k, v) :: m, a => if k = a then some v else Memory.read m a

/-- Store one byte, keeping the addresses strictly rising. -/
def Memory.write : Memory → Nat → Byte → Memory
  | [], a, b => [(a, b)]
  | (k, v) :: m, a, b =>
    if a < k then (a, b) :: (k, v) :: m
    else if a = k then (a, b) :: m
    else (k, v) :: Memory.write m a b

/-- Store a list of bytes at rising addresses from `a`. -/
def Memory.writeList : Memory → Nat → List Byte → Memory
  | m, _, [] => m
  | m, a, b :: bs => Memory.writeList (Memory.write m a b) (a + 1) bs

/-- The `n` bytes from address `a`, none where one of them holds no value. -/
def Memory.readList (m : Memory) (a : Nat) : Nat → Option (List Byte)
  | 0 => some []
  | n + 1 =>
    match Memory.read m a, Memory.readList m (a + 1) n with
    | some b, some bs => some (b :: bs)
    | _, _ => none

/-- The space that holds a list of bytes at addresses 0, 1, ... (20 R62). -/
def Memory.ofList (bs : List Byte) : Memory := Memory.writeList [] 0 bs

/-- The canonical form: addresses strictly rising. -/
def Memory.wf : Memory → Bool
  | [] => true
  | (k, _) :: m => m.all (fun c => decide (k < c.1)) && Memory.wf m

/-! ## Events -/

/-- `emit E`: append an event to the trace (00 R16). -/
def State.emit (s : State) (e : Event) : State := { s with trace := s.trace ++ [e] }

/-- `pin_out[pin] <- bit` (44 R211). -/
def PinLatches.set (l : PinLatches) (pin : OutPin) (bit : Bit) : PinLatches :=
  match pin with
  | .panelOn => { l with panelOn := some bit }
  | .border => { l with border := some bit }
  | .discharge => { l with discharge := some bit }
  | .reset => { l with reset := some bit }

/-- `pin_out[pin]` (10 R31). -/
def PinLatches.get (l : PinLatches) : OutPin → Option Bit
  | .panelOn => l.panelOn
  | .border => l.border
  | .discharge => l.discharge
  | .reset => l.reset

/-- `CogWrite(c, data)` as one abstract event (44 R224). -/
def State.cogWrite (s : State) (c : CogWriteCmd) (data : List Byte) : State := s.emit (.cogWrite c data)

/-! ## The oracle (00 R12): the head of the list, or a free value where the list is empty -/

/-- The answer of `GpioRead` (44 R212). -/
def Oracle.askBusy (o : Oracle) : Bit := o.busy.headD (Config.freeBit o.draws)
/-- The oracle after it. -/
def Oracle.afterBusy (o : Oracle) : Oracle := { o with busy := o.busy.tail, draws := o.draws + 1 }

/-- The answer of `CogRead` (44 R225). -/
def Oracle.askCog (o : Oracle) : Byte := o.cog.headD (Config.freeByte o.draws)
/-- The oracle after it. -/
def Oracle.afterCog (o : Oracle) : Oracle := { o with cog := o.cog.tail, draws := o.draws + 1 }

/-- The answer of `TimerQuery` (44 R221). -/
def Oracle.askTimer (o : Oracle) : Nat := o.timer.headD (Config.freeNat o.draws)
/-- The oracle after it. -/
def Oracle.afterTimer (o : Oracle) : Oracle := { o with timer := o.timer.tail, draws := o.draws + 1 }

/-- The answer of `TimerCreate` (44 R219). -/
def Oracle.askTimerCreate (o : Oracle) : Bool := o.timerCreate.headD (Config.freeBit o.draws)
/-- The oracle after it. -/
def Oracle.afterTimerCreate (o : Oracle) : Oracle := { o with timerCreate := o.timerCreate.tail, draws := o.draws + 1 }

/-- The answer for the scratch buffer allocation (40 R122). -/
def Oracle.askBuffer (o : Oracle) : Bool := o.bufferAlloc.headD (Config.freeBit o.draws)
/-- The oracle after it. -/
def Oracle.afterBuffer (o : Oracle) : Oracle := { o with bufferAlloc := o.bufferAlloc.tail, draws := o.draws + 1 }

/-- The value of a STATUS before any BEGIN or END (40 R124). -/
def Oracle.askStatus (o : Oracle) : Status := o.status.headD (Config.freeStatus o.draws)
/-- The oracle after it. -/
def Oracle.afterStatus (o : Oracle) : Oracle := { o with status := o.status.tail, draws := o.draws + 1 }

/-- `n` bytes of the image row at index L (42 R177), and the oracle after them. -/
def Oracle.drawRowL : Nat → Oracle → List Byte × Oracle
  | 0, o => ([], o)
  | n + 1, o =>
    let r := Oracle.drawRowL n { o with rowL := o.rowL.tail, draws := o.draws + 1 }
    (o.rowL.headD (Config.freeByte o.draws) :: r.1, r.2)

/-- The `n` bytes of an `XportRead` (44 R216), and the oracle after them. -/
def Oracle.drawXport : Nat → Oracle → List Byte × Oracle
  | 0, o => ([], o)
  | n + 1, o =>
    let r := Oracle.drawXport n { o with xport := o.xport.tail, draws := o.draws + 1 }
    (o.xport.headD (Config.freeByte o.draws) :: r.1, r.2)

/-- `v <- ask CogRead(c)` as one abstract event (44 R225): append it with its answer and take the answer. -/
def State.cogRead (s : State) (c : CogReadCmd) : State :=
  { s.emit (.cogRead c s.oracle.askCog) with oracle := s.oracle.afterCog }

/-! ## The gates of the host commands (30 R108) -/

/-- No operation runs (10 R27). -/
def State.atIdle (s : State) : Bool := decide (s.ctl = .idle) && s.line.isNone

/-- A command other than OPEN: refused `Busy` while an operation runs, `NoHandle` without a handle. -/
def withHandle (s : State) (k : Result) : Result :=
  if !s.atIdle then .refused .busy
  else if !s.handleValid then .refused .noHandle
  else k

/-- A step that reads `profile`, refused where it holds no value (10 R20). -/
def withProfile (s : State) (k : PanelProfile → Result) : Result :=
  match s.profile with
  | none => .refused (.readOfUnwritten .profile)
  | some p => k p

/-- A step that reads `comp`, refused where it holds no value (10 R20). -/
def withComp (s : State) (k : CompProfile → Result) : Result :=
  match s.comp with
  | none => .refused (.readOfUnwritten .comp)
  | some c => k c

/-! ## The end of an operation and the failure path -/

/-- The operation returns: `ctl <- Idle`, and no sampled value survives it (10 R27, R28). -/
def State.finish (s : State) : State := { s with ctl := .idle, sampled := Sampled.none }

/-- The entry of PoweringDown (41 R151): `ctl` goes to its first event; the fetch of that event does `pwr <- PoweringDown`. -/
def State.enterPoweringDown (s : State) : State := { s with ctl := .pdFlush 0 }

/-- `raise Fail(kind)` (60 R265): `status <- kind`, `pwr <- Failed(kind)`, `from_failed <- true`, PoweringDown next. Nothing
is saved; there is no handler. -/
def State.raiseFail (s : State) (kind : FailKind) : State :=
  ({ s with status := some (statusOf kind), pwr := .failed kind, fromFailed := true } : State).enterPoweringDown

/-- The end of PoweringDown, which is also the return from `raise Fail` (41 R155, 60 R265): `pwr <- Off`,
`from_failed <- false`, the operation returns. -/
def State.endPoweringDown (s : State) : State :=
  ({ s with pwr := .off, fromFailed := false } : State).finish

/-- The DC/DC re-check of PoweringDown failed (41 R153): `status <- DCFailed` unless PoweringDown is the failure path of a
BEGIN, and the register sequence is skipped. -/
def State.abortToFinal (s : State) : State :=
  { s with status := if s.fromFailed then s.status else some .dcFailed, ctl := .pdFinal 0 }

end Sys2Proof.Machine
end

