-- ==== Sys2Proof/Machine/Cog.lean ====
section
/-! DEFINITION. The 20 COG commands (spec/44_interface_ops.md R226 to R245), each one abstract event (R224, R225). A read leaves
its answer in the sampled value that the rule issuing it names. -/

namespace Sys2Proof.Machine

/-- READ_ID (44 R226): the first of the two reads, at the control state VF.id's first place, answers into `id1`, the second into
`id2` (41 R144). DESIGN CHOICE (assumption 23): at a control state other than VF.id no rule issues READ_ID, so none names the
sampled value of 44 R225; the model writes `id2` there. Safe: the sequencer fetches READ_ID at VF.id only. -/
def execReadId (s : State) : Result :=
  let v := s.oracle.askCog
  .next
    { s.cogRead .readId with
      sampled := if s.ctl = .vfId false then { s.sampled with id1 := some v } else { s.sampled with id2 := some v } }

/-- READ_BREAKAGE (44 R228): answers into `brk`. -/
def execReadBreakage (s : State) : Result :=
  .next { s.cogRead .readBreakage with sampled := { s.sampled with brk := some s.oracle.askCog } }

/-- READ_DCDC (44 R237): answers into `dc`. -/
def execReadDcdc (s : State) : Result :=
  .next { s.cogRead .readDcdc with sampled := { s.sampled with dc := some s.oracle.askCog } }

/-- OE_DISABLE (44 R227). -/
def execOeDisable (s : State) : Result := .next (s.cogWrite .oeDisable [])
/-- POWER_SAVING (44 R229). -/
def execPowerSaving (s : State) : Result := .next (s.cogWrite .powerSaving [])
/-- CHANNEL_SELECT (44 R230): the mask is sent as given, bytes 0 to 8 in order. -/
def execChannelSelect (mask : List Byte) (s : State) : Result := .next (s.cogWrite .channelSelect mask)
/-- OSCILLATOR_ON (44 R231). -/
def execOscillatorOn (s : State) : Result := .next (s.cogWrite .oscillatorOn [])
/-- POWER_SETTING (44 R232). -/
def execPowerSetting (s : State) : Result := .next (s.cogWrite .powerSetting [])
/-- VCOM_LEVEL (44 R233). -/
def execVcomLevel (s : State) : Result := .next (s.cogWrite .vcomLevel [])
/-- PUMP_POSITIVE (44 R234). -/
def execPumpPositive (s : State) : Result := .next (s.cogWrite .pumpPositive [])
/-- PUMP_NEGATIVE (44 R235). -/
def execPumpNegative (s : State) : Result := .next (s.cogWrite .pumpNegative [])
/-- PUMP_VCOM (44 R236). -/
def execPumpVcom (s : State) : Result := .next (s.cogWrite .pumpVcom [])
/-- LATCH_RESET_ON (44 R238). -/
def execLatchResetOn (s : State) : Result := .next (s.cogWrite .latchResetOn [])
/-- POWER_OFF_POSITIVE (44 R239). -/
def execPowerOffPositive (s : State) : Result := .next (s.cogWrite .powerOffPositive [])
/-- POWER_OFF_VCOM (44 R240). -/
def execPowerOffVcom (s : State) : Result := .next (s.cogWrite .powerOffVcom [])
/-- POWER_OFF_ALL_PUMPS (44 R241). -/
def execPowerOffAllPumps (s : State) : Result := .next (s.cogWrite .powerOffAllPumps [])
/-- OSCILLATOR_OFF (44 R242). -/
def execOscillatorOff (s : State) : Result := .next (s.cogWrite .oscillatorOff [])
/-- DISCHARGE_ON (44 R243). -/
def execDischargeOn (s : State) : Result := .next (s.cogWrite .dischargeOn [])
/-- DISCHARGE_OFF (44 R244). -/
def execDischargeOff (s : State) : Result := .next (s.cogWrite .dischargeOff [])
/-- OE_TO_PANEL (44 R245). -/
def execOeToPanel (s : State) : Result := .next (s.cogWrite .oeToPanel [])

/-! ## The transport calls behind a COG command (44 R224, R225) -/

/-- A call of the transport interface as the wire sees it. -/
inductive WireCall where
  | send (bytes : List Byte)
  | read (command : List Byte) (n : Nat)
deriving DecidableEq, Repr, Inhabited

/-- The transport calls that carry an event, by the platform's COGFRAME (30 R103); none for an event that is no transport
call. -/
def wireCalls (f : CogFrame) : Event → List WireCall
  | .cogWrite c data => (f.write c data).map .send
  | .cogRead c _ => (f.read c).sends.map .send ++ [.read (f.read c).command (f.read c).count]
  | .xportSend bytes => [.send bytes]
  | .xportRead command n _ => [.read command n]
  | _ => []

/-- Every transport call of a trace, in order. -/
def wireTrace (f : CogFrame) (trace : List Event) : List WireCall := trace.flatMap (wireCalls f)

end Sys2Proof.Machine
end

