-- ==== Sys2Proof/Machine/Events.lean ====
section
/-! DEFINITION. The 12 interface events (spec/44_interface_ops.md R210 to R221). Each appends itself to the trace; what else it
changes is the table of 44 R223 and the sampled values of 10 R28. -/

namespace Sys2Proof.Machine

/-- GpioConfigure (44 R210): no effect on state. The controller's own sequences never emit it. -/
def execGpioConfigure (pin : Pin) (mode : PinMode) (s : State) : Result := .next (s.emit (.gpioConfigure pin mode))

/-- GpioWrite (44 R211): `pin_out[pin] <- bit`. -/
def execGpioWrite (pin : OutPin) (bit : Bit) (s : State) : Result :=
  .next { s.emit (.gpioWrite pin bit) with pinOut := s.pinOut.set pin bit }

/-- GpioRead (44 R212): the oracle's bit; a read of `busy` leaves it in `busy_s` (10 R28). -/
def execGpioRead (pin : Pin) (s : State) : Result :=
  .next
    { s.emit (.gpioRead pin s.oracle.askBusy) with
      oracle := s.oracle.afterBusy
      sampled := if pin = .busy then { s.sampled with busyS := some s.oracle.askBusy } else s.sampled }

/-- XportEnable (44 R213): `xport_en <- true`. -/
def execXportEnable (s : State) : Result := .next { s.emit .xportEnable with xportEn := some true }

/-- XportDisable (44 R214): `xport_en <- false`. -/
def execXportDisable (s : State) : Result := .next { s.emit .xportDisable with xportEn := some false }

/-- XportSend (44 R215). -/
def execXportSend (bytes : List Byte) (s : State) : Result := .next (s.emit (.xportSend bytes))

/-- XportRead (44 R216): `n` bytes of the oracle's choice. -/
def execXportRead (command : List Byte) (n : Nat) (s : State) : Result :=
  .next
    { s.emit (.xportRead command n (Oracle.drawXport n s.oracle).1) with oracle := (Oracle.drawXport n s.oracle).2 }

/-- DelayMs (44 R217). -/
def execDelayMs (n : Nat) (s : State) : Result := .next (s.emit (.delayMs n))

/-- DelayUs (44 R218). -/
def execDelayUs (n : Nat) (s : State) : Result := .next (s.emit (.delayUs n))

/-- TimerCreate (44 R219): the oracle's Bool. `timer_valid` is written by OPEN, not by the event (44 R223). -/
def execTimerCreate (s : State) : Result :=
  .next { s.emit (.timerCreate s.oracle.askTimerCreate) with oracle := s.oracle.afterTimerCreate }

/-- TimerArm (44 R220). -/
def execTimerArm (ms : Nat) (s : State) : Result := .next (s.emit (.timerArm ms))

/-- TimerQuery (44 R221): the oracle's natural, left in `rem`. -/
def execTimerQuery (s : State) : Result :=
  .next
    { s.emit (.timerQuery s.oracle.askTimer) with
      oracle := s.oracle.afterTimer
      sampled := { s.sampled with rem := some s.oracle.askTimer } }

end Sys2Proof.Machine
end

