-- ==== Sys2Proof/WellFormed.lean ====
section
/-! DEFINITION. Which instruction terms are instructions of the tables: the checks on operands that the types do not make
(spec/30_encoding.md R99, R100, R104; 44 R215 to R217). -/

namespace Sys2Proof

/-- `Line`'s operands fit some size class: `data` has `bytes_per_line` bytes and `row` is at most `lines_per_display` (30 R99). -/
def lineFits (row : LineRow) (data : Option (List Byte)) (c : SizeClass) : Bool :=
  (match data with
   | none => true
   | some d => decide (d.length = Machine.bytesPerLine c)) &&
  (match row with
   | .noRow => true
   | .row r => decide (r ≤ Machine.linesPerDisplay c))

/-- The operand checks. An instruction with no check has no ill-formed term. -/
def wellFormed : Instr → Bool
  | .lineData row data _ _ _ => lineFits row data .s144 || lineFits row data .s200 || lineFits row data .s270
  | .channelSelect mask => decide (mask.length = 9)
  | .xportSend bytes => !bytes.isEmpty
  | .xportRead _ n => decide (1 ≤ n)
  | .delayMs n => decide (1 ≤ n)
  | .openPanel _ | .close | .setTemperature _ | .status | .begin | .endPower | .clear | .paint _ => true
  | .readId | .oeDisable | .readBreakage | .powerSaving | .oscillatorOn | .powerSetting | .vcomLevel => true
  | .pumpPositive | .pumpNegative | .pumpVcom | .readDcdc | .latchResetOn | .powerOffPositive | .powerOffVcom => true
  | .powerOffAllPumps | .oscillatorOff | .dischargeOn | .dischargeOff | .oeToPanel => true
  | .gpioConfigure _ _ | .gpioWrite _ _ | .gpioRead _ | .xportEnable | .xportDisable => true
  | .delayUs _ | .timerCreate | .timerArm _ | .timerQuery => true

end Sys2Proof
end

