-- ==== Sys2Proof/Decode.lean ====
section
/-! DEFINITION. Decoding, total on every encoded thing and rejecting by name, and the encoder beside it
(spec/30_encoding.md): format H by `op[2:0]` and the kind of the operand, formats L, C and E by name and arguments, and the
bytes of a line payload. -/

namespace Sys2Proof

/-- Why an encoded thing is no instruction. -/
inductive DecodeError where
  /-- format H: the operand is not of the kind `op` takes (30 R91) -/
  | wrongOperand
  /-- format L: the operands fit no size class (30 R99) -/
  | lineOperands
  /-- format C: data on a command without data, or not nine bytes on CHANNEL_SELECT (30 R100) -/
  | cogData
  /-- format E: the arguments are not those of the event (30 R104), an empty send among them -/
  | eventArgs
deriving DecidableEq, Repr, Inhabited

/-! ## Format H -/

/-- The host command of a pair `(op, operand)` (30 R91). All eight codes are used (30 R105). -/
def decodeHost (w : HostWord) : Except DecodeError Instr :=
  match w.op.toNat, w.operand with
  | 0, .selector sel => .ok (.openPanel sel)
  | 1, .none => .ok .close
  | 2, .celsius t => .ok (.setTemperature t)
  | 3, .none => .ok .status
  | 4, .none => .ok .begin
  | 5, .none => .ok .endPower
  | 6, .none => .ok .clear
  | 7, .image bytes => .ok (.paint bytes)
  | _, _ => .error .wrongOperand

/-! ## Format C -/

/-- The instruction of a COG write command without data; `none` for CHANNEL_SELECT. -/
def writeInstr : CogWriteCmd → Option Instr
  | .oeDisable => some .oeDisable
  | .powerSaving => some .powerSaving
  | .channelSelect => none
  | .oscillatorOn => some .oscillatorOn
  | .powerSetting => some .powerSetting
  | .vcomLevel => some .vcomLevel
  | .pumpPositive => some .pumpPositive
  | .pumpNegative => some .pumpNegative
  | .pumpVcom => some .pumpVcom
  | .latchResetOn => some .latchResetOn
  | .powerOffPositive => some .powerOffPositive
  | .powerOffVcom => some .powerOffVcom
  | .powerOffAllPumps => some .powerOffAllPumps
  | .oscillatorOff => some .oscillatorOff
  | .dischargeOn => some .dischargeOn
  | .dischargeOff => some .dischargeOff
  | .oeToPanel => some .oeToPanel

/-- The instruction of a COG read command. -/
def readInstr : CogReadCmd → Instr
  | .readId => .readId
  | .readBreakage => .readBreakage
  | .readDcdc => .readDcdc

/-- The COG command of a name and its data (30 R100: "Only CHANNEL_SELECT has data"). -/
def decodeCog (name : CogName) (data : List Byte) : Except DecodeError Instr :=
  match name with
  | .read c => if data = [] then .ok (readInstr c) else .error .cogData
  | .write c =>
    match writeInstr c with
    | some i => if data = [] then .ok i else .error .cogData
    | none => if data.length = 9 then .ok (.channelSelect data) else .error .cogData

/-! ## Format E -/

/-- The line of the five that the controller drives (30 R104, 10 R31). -/
def outPin : Pin → Option OutPin
  | .panelOn => some .panelOn
  | .border => some .border
  | .discharge => some .discharge
  | .reset => some .reset
  | .busy => none

/-- An output line as one of the five lines. -/
def pinOf : OutPin → Pin
  | .panelOn => .panelOn
  | .border => .border
  | .discharge => .discharge
  | .reset => .reset

/-- The event of a name and its arguments (30 R104). -/
def decodeEvent (name : EventName) (args : List Arg) : Except DecodeError Instr :=
  match name, args with
  | .gpioConfigure, [.pin p, .mode m] => .ok (.gpioConfigure p m)
  | .gpioWrite, [.pin p, .bit b] =>
    match outPin p with
    | some o => .ok (.gpioWrite o b)
    | none => .error .eventArgs
  | .gpioRead, [.pin p] => .ok (.gpioRead p)
  | .xportEnable, [] => .ok .xportEnable
  | .xportDisable, [] => .ok .xportDisable
  | .xportSend, [.bytes bs] => if bs = [] then .error .eventArgs else .ok (.xportSend bs)
  | .xportRead, [.bytes c, .nat n] => if n = 0 then .error .eventArgs else .ok (.xportRead c n)
  | .delayMs, [.nat n] => if n = 0 then .error .eventArgs else .ok (.delayMs n)
  | .delayUs, [.nat n] => .ok (.delayUs n)
  | .timerCreate, [] => .ok .timerCreate
  | .timerArm, [.nat ms] => .ok (.timerArm ms)
  | .timerQuery, [] => .ok .timerQuery
  | _, _ => .error .eventArgs

/-! ## All four formats -/

/-- The instruction of an encoded thing. -/
def decode : Code → Except DecodeError Instr
  | .host w => decodeHost w
  | .line row data fixed pol border =>
    if wellFormed (.lineData row data fixed pol border) then .ok (.lineData row data fixed pol border) else .error .lineOperands
  | .cog name data => decodeCog name data
  | .event name args => decodeEvent name args

/-- The encoded thing of an instruction, from the same tables (30 R91, R99, R100, R104). -/
def encode : Instr → Code
  | .openPanel sel => .host ⟨0b000, .selector sel⟩
  | .close => .host ⟨0b001, .none⟩
  | .setTemperature t => .host ⟨0b010, .celsius t⟩
  | .status => .host ⟨0b011, .none⟩
  | .begin => .host ⟨0b100, .none⟩
  | .endPower => .host ⟨0b101, .none⟩
  | .clear => .host ⟨0b110, .none⟩
  | .paint bytes => .host ⟨0b111, .image bytes⟩
  | .lineData row data fixed pol border => .line row data fixed pol border
  | .readId => .cog (.read .readId) []
  | .oeDisable => .cog (.write .oeDisable) []
  | .readBreakage => .cog (.read .readBreakage) []
  | .powerSaving => .cog (.write .powerSaving) []
  | .channelSelect mask => .cog (.write .channelSelect) mask
  | .oscillatorOn => .cog (.write .oscillatorOn) []
  | .powerSetting => .cog (.write .powerSetting) []
  | .vcomLevel => .cog (.write .vcomLevel) []
  | .pumpPositive => .cog (.write .pumpPositive) []
  | .pumpNegative => .cog (.write .pumpNegative) []
  | .pumpVcom => .cog (.write .pumpVcom) []
  | .readDcdc => .cog (.read .readDcdc) []
  | .latchResetOn => .cog (.write .latchResetOn) []
  | .powerOffPositive => .cog (.write .powerOffPositive) []
  | .powerOffVcom => .cog (.write .powerOffVcom) []
  | .powerOffAllPumps => .cog (.write .powerOffAllPumps) []
  | .oscillatorOff => .cog (.write .oscillatorOff) []
  | .dischargeOn => .cog (.write .dischargeOn) []
  | .dischargeOff => .cog (.write .dischargeOff) []
  | .oeToPanel => .cog (.write .oeToPanel) []
  | .gpioConfigure p m => .event .gpioConfigure [.pin p, .mode m]
  | .gpioWrite p b => .event .gpioWrite [.pin (pinOf p), .bit b]
  | .gpioRead p => .event .gpioRead [.pin p]
  | .xportEnable => .event .xportEnable []
  | .xportDisable => .event .xportDisable []
  | .xportSend bs => .event .xportSend [.bytes bs]
  | .xportRead c n => .event .xportRead [.bytes c, .nat n]
  | .delayMs n => .event .delayMs [.nat n]
  | .delayUs n => .event .delayUs [.nat n]
  | .timerCreate => .event .timerCreate []
  | .timerArm ms => .event .timerArm [.nat ms]
  | .timerQuery => .event .timerQuery []

/-! ## The bytes of a line payload (30 R96) -/

/-- The bytes of a payload, first byte first: command, border, odd, scan, even. -/
def payloadBytes (p : LinePayload) : List Byte := p.cmd :: p.border :: (p.odd ++ p.scan ++ p.even)

/-- The payload that a byte string of the right length holds, for a panel of the given size class (30 R96, R110). -/
def decodePayload (c : SizeClass) : List Byte → Option LinePayload
  | cmd :: border :: rest =>
    let bpl := Machine.bytesPerLine c
    let bps := Machine.bytesPerScan c
    if rest.length = 2 * bpl + bps then
      some ⟨cmd, border, rest.take bpl, (rest.drop bpl).take bps, rest.drop (bpl + bps)⟩
    else none
  | _ => none

/-! ## Words of the opcode table -/

/-- The operand of zeros of a host command, for the rows of the table that give the operand no bits. -/
def zeroOperand (op : BitVec 3) : Operand :=
  match op.toNat with
  | 0 => .selector 0
  | 2 => .celsius 0
  | 7 => .image []
  | _ => .none

/-- The host word whose `op[2:0]` are bits 2..0 of `w` and whose operand is zero. The table masks `op` with 0x7, so no
other bit of `w` belongs to the command (30 R105). -/
def tableHostWord (w : Nat) : HostWord :=
  let op := BitVec.ofNat 3 w
  ⟨op, zeroOperand op⟩

/-- The instruction the decoder reads from a word of the opcode table. Only the eight rows of format H have bits. -/
def decodeTableWord (nbits w : Nat) : Option Instr :=
  if 3 ≤ nbits then
    match decode (.host (tableHostWord w)) with
    | .ok i => some i
    | .error _ => none
  else none

end Sys2Proof
end

