-- ==== Sys2Proof/Machine/Operands.lean ====
section
/-! DEFINITION. The Line Encoder's operand forms: pixel codes, scan-address bytes and the whole payload
(spec/43_line_encoder.md R191 to R198, 30_encoding.md R96). -/

namespace Sys2Proof.Machine

/-- `OddCode(x, pol)` (43 R194). -/
def oddCode (x : Byte) : Polarity → Byte
  | .normal => (x &&& 0x55) ||| 0xaa
  | .inverse => ((x &&& 0x55) ^^^ 0x55) ||| 0xaa

/-- `Rev2(p)`, the four 2-bit groups in reverse order (43 R198). -/
def rev2 (p : Byte) : Byte :=
  ((p &&& 0x03) <<< 6) ||| ((p &&& 0x0c) <<< 2) ||| ((p &&& 0x30) >>> 2) ||| ((p &&& 0xc0) >>> 6)

/-- The masked bits of an even code after the polarity transform (43 R198). -/
def evenBits (x : Byte) : Polarity → Byte
  | .normal => x &&& 0xaa
  | .inverse => (x &&& 0xaa) ^^^ 0xaa

/-- `EvenCode(x, pol)` (43 R198). -/
def evenCode (x : Byte) (pol : Polarity) : Byte := rev2 (evenBits x pol >>> 1) ||| 0xaa

/-- `v / 4`, rounding a negative `v` as SCAN_NEG_DIV says (43 R196). -/
def divFour : NegDiv → Int → Int
  | .floor, v => v.fdiv 4
  | .trunc, v => v.tdiv 4

/-- `scan_pos = (lines_per_display - row - 1) / 4` (43 R195). -/
def scanPos (nd : NegDiv) (lines row : Nat) : Int := divFour nd ((lines : Int) - row - 1)

/-- `0x03 << (2*(row mod 4))` (43 R195). -/
def scanSelect (row : Nat) : Byte := (0x03 : Byte) <<< (2 * (row % 4))

/-- `ScanByte(row, s)` (43 R195, R196). -/
def scanByte (nd : NegDiv) (lines : Nat) (row : LineRow) (s : Nat) : Byte :=
  match row with
  | .noRow => 0x00
  | .row r => if (s : Int) = scanPos nd lines r then scanSelect r else 0x00

/-- The odd section: source bytes from the last to the first, or the fixed value (43 R193). -/
def oddSection (bpl : Nat) (data : Option (List Byte)) (fixed : Byte) (pol : Polarity) : List Byte :=
  match data with
  | some d => d.reverse.map (oddCode · pol)
  | none => List.replicate bpl fixed

/-- The even section: source bytes from the first to the last, or the fixed value (43 R197). -/
def evenSection (bpl : Nat) (data : Option (List Byte)) (fixed : Byte) (pol : Polarity) : List Byte :=
  match data with
  | some d => d.map (evenCode · pol)
  | none => List.replicate bpl fixed

/-- The scan section, scan byte 0 first (43 R195). -/
def scanSection (nd : NegDiv) (lines bps : Nat) (row : LineRow) : List Byte :=
  (List.range bps).map (scanByte nd lines row)

/-- The payload of a line, field by field (43 R190). -/
def linePayload (cfg : Cfg) (p : PanelProfile) (row : LineRow) (data : Option (List Byte)) (fixed : Byte) (pol : Polarity)
    (border : Byte) : LinePayload where
  cmd := cfg.cmdLine
  border := border
  odd := oddSection p.bytesPerLine data fixed pol
  scan := scanSection cfg.scanNegDiv p.linesPerDisplay p.bytesPerScan row
  even := evenSection p.bytesPerLine data fixed pol

/-- The bytes of a line, in the order of `LB` (20 R61). -/
def lineBytes (cfg : Cfg) (p : PanelProfile) (row : LineRow) (data : Option (List Byte)) (fixed : Byte) (pol : Polarity)
    (border : Byte) : List Byte :=
  payloadBytes (linePayload cfg p row data fixed pol border)

/-- `data` is absent or a list of exactly `bytes_per_line` bytes (30 R99). -/
def dataFits (p : PanelProfile) : Option (List Byte) → Bool
  | none => true
  | some d => decide (d.length = p.bytesPerLine)

/-- A dummy line of PoweringDown: `Line(NoRow, absent, 0x00, Normal, border)` (41 R151). -/
def dummyLine (border : Byte) : Instr := .lineData .noRow none 0x00 .normal border

/-- The sentinel line of 42 R176 (a). -/
def sentinelLine : Instr := .lineData .noRow none 0x00 .normal 0x00

/-- The terminator line of 42 R176 (b). -/
def terminatorLine (pos : Nat) : Instr := .lineData (.row pos) none 0x00 .normal 0x00

/-- A stage's polarity (42 R173). -/
def stagePol : Stage → Polarity
  | .one => .inverse
  | .three => .normal

/-- A CLEAR stage's fixed value (42 R173). -/
def stageFixed : Stage → Byte
  | .one => 0xff
  | .three => 0xaa

/-- A timed pass's fixed value (42 R179). -/
def halfFixed : Half → Byte
  | .first => 0xff
  | .second => 0xaa

/-- A timed pass's time (42 R179). -/
def halfTime (c : CompProfile) : Half → Nat
  | .first => c.stage2T1
  | .second => c.stage2T2

/-- `repeat`, `step` and `block` of a block-scan stage (42 R172). -/
structure ScanShape where
  passes : Nat
  step : Nat
  block : Nat
deriving DecidableEq, Repr, Inhabited

/-- The fields of the compensation profile that a block-scan stage uses (42 R172). -/
def stageShape (c : CompProfile) : Stage → ScanShape
  | .one => ⟨c.stage1Repeat, c.stage1Step, c.stage1Block⟩
  | .three => ⟨c.stage3Repeat, c.stage3Step, c.stage3Block⟩

end Sys2Proof.Machine
end

