-- ==== Sys2Proof/Machine/Frame.lean ====
section
/-! DEFINITION. CLEAR and PAINT (spec/42_frame_driver.md R170, R171): what the command writes before its first event. The lines
of its three stages follow, one event a step, by the sequencer (Machine/Sequencer.lean), the first event in the command's own step
(Machine/Cycle.lean). -/

namespace Sys2Proof.Machine

/-- The first window start of a pass, `step - block` (42 R174). -/
def firstWindow (sh : ScanShape) : Int := (sh.step : Int) - sh.block

/-- The first position of a block-scan stage (42 R174). -/
def stageStart (op : FrameOp) (c : CompProfile) (stage : Stage) : Ctl :=
  .scan op stage 0 (firstWindow (stageShape c stage)) 0

/-- The gate of CLEAR and PAINT: a selected profile (42 R183) that meets the constraint on COMP (42 R178). -/
def withSaneComp (s : State) (k : CompProfile → Result) : Result :=
  if !s.compValid then .refused .noCompensation
  else withComp s fun c => if !c.ok then .refused .badCompensation else k c

/-- CLEAR (42 R170): stage 1 starts. -/
def execClear (s : State) : Result :=
  withHandle s (withSaneComp s fun c => .next { s with ctl := stageStart .clear c .one, result := none })

/-- PAINT (42 R171): the host presents its image and stage 1 starts. -/
def execPaint (image : List Byte) (s : State) : Result :=
  withHandle s (withSaneComp s fun c => withProfile s fun p =>
    if image.length ≠ imageLength p then .refused .badImageLength
    else .next { s with img := Memory.ofList image, ctl := stageStart .paint c .one, result := none })

end Sys2Proof.Machine
end

