-- ==== Sys2Proof/Machine/Line.lean ====
section
/-! DEFINITION. LINE_DATA: the Line procedure (spec/43_line_encoder.md R190). Its first event and the filling of `LB` are the
instruction's own step; the three events that follow come by the sequencer (Machine/Sequencer.lean). -/

namespace Sys2Proof.Machine

/-- `Line(row, data, fixed, pol, border)` up to the payload (43 R190): `XportEnable`, then `LB[0 .. 2*bpl+bps+1]` is
written (43 R201), and the procedure stands before `XportSend`. -/
def execLineData (row : LineRow) (data : Option (List Byte)) (fixed : Byte) (pol : Polarity) (border : Byte) (s : State) :
    Result :=
  withProfile s fun p =>
    if !dataFits p data then .refused .badRowLength
    else if s.lbSize < payloadLength p then .fault .lbOutOfRange
    else .next
      { s.emit .xportEnable with
        xportEn := some true
        lb := Memory.writeList s.lb 0 (lineBytes s.cfg p row data fixed pol border)
        line := some .send }

end Sys2Proof.Machine
end

