-- ==== Sys2Proof/Machine/Power.lean ====
section
/-! DEFINITION. BEGIN and END (spec/41_power_sequencer.md R140, R150): what the command writes before its first event. The events
follow, one a step, by the sequencer (Machine/Sequencer.lean), the first of them in the command's own step (Machine/Cycle.lean). -/

namespace Sys2Proof.Machine

/-- BEGIN (41 R140): `status <- OK`, `pwr <- PoweringUp`, and the control state goes to the first event of PoweringUp. -/
def execBegin (s : State) : Result :=
  withHandle s (.next { s with status := some .ok, pwr := .poweringUp, ctl := .puPins 0, result := none })

/-- END (41 R150): `status <- OK`, `from_failed <- false`, and the control state goes to the first event of PoweringDown. -/
def execEnd (s : State) : Result :=
  withHandle s (.next ({ s with status := some .ok, fromFailed := false, result := none } : State).enterPoweringDown)

end Sys2Proof.Machine
end

