-- ==== Sys2Proof/Machine/Session.lean ====
section
/-! DEFINITION. OPEN, CLOSE, SET_TEMPERATURE, STATUS (spec/40_profile_and_host.md R122 to R128). -/

namespace Sys2Proof.Machine

/-- The handle's registers after a successful OPEN (40 R122, 10 R20's last column). -/
def State.withNewHandle (s : State) (p : PanelProfile) : State :=
  { s with
    profile := some p
    timerValid := true
    lbSize := scratchSize p
    lb := []
    compValid := false
    band := none
    comp := none
    status := none
    pwr := .off
    fromFailed := false
    handleValid := true
    result := some .opened }

/-- OPEN with a supported size: the timer, then the buffer (40 R122, 60 R264, R268). -/
def openWith (p : PanelProfile) (s : State) : State :=
  let s1 := { s.emit (.timerCreate s.oracle.askTimerCreate) with oracle := s.oracle.afterTimerCreate }
  if s.oracle.askTimerCreate then
    let s2 := { s1 with oracle := s1.oracle.afterBuffer }
    if s1.oracle.askBuffer then s2.withNewHandle p
    else { s2 with result := some .allocationFailed }
  else { s1 with result := some .allocationFailed }

/-- OPEN (40 R122). -/
def execOpen (sel : Nat) (s : State) : Result :=
  if !s.atIdle then .refused .busy
  else if s.handleValid then .refused .alreadyOpen
  else
    match resolve s.cfg sel with
    | none => .next { s with result := some .unsupportedSize }
    | some p => .next (openWith p s)

/-- CLOSE (40 R123): the handle's registers hold no value again; `pwr`, the pins and `xport_en` keep theirs. -/
def execClose (s : State) : Result :=
  withHandle s (.next
    { s with
      handleValid := false
      timerValid := false
      compValid := false
      profile := none
      band := none
      comp := none
      status := none
      lbSize := 0
      lb := []
      result := none })

/-- SET_TEMPERATURE (40 R127). -/
def execSetTemperature (celsius : Int) (s : State) : Result :=
  withHandle s (withProfile s fun p => .next
    { s with
      band := some (bandOf celsius)
      comp := some (compOf s.cfg p.sizeClass (bandOf celsius))
      compValid := true
      result := none })

/-- STATUS (40 R124): the value of `status`, or any of the four where it holds none. -/
def execStatus (s : State) : Result :=
  withHandle s
    (match s.status with
     | some v => .next { s with result := some (.status v) }
     | none => .next { s with result := some (.status s.oracle.askStatus), oracle := s.oracle.afterStatus })

end Sys2Proof.Machine
end

