-- ==== Sys2Proof/Machine/Dispatch.lean ====
section
/-! DEFINITION. The meaning of every instruction, one arm per row of spec/opcode_table.json. -/

namespace Sys2Proof.Machine

def exec (i : Instr) (s : State) : Host.Outcome State Fault Refusal :=
  match i with
  | .openPanel sel => Sys2Proof.Machine.execOpen sel s
  | .close => Sys2Proof.Machine.execClose s
  | .setTemperature celsius => Sys2Proof.Machine.execSetTemperature celsius s
  | .status => Sys2Proof.Machine.execStatus s
  | .begin => Sys2Proof.Machine.execBegin s
  | .endPower => Sys2Proof.Machine.execEnd s
  | .clear => Sys2Proof.Machine.execClear s
  | .paint image => Sys2Proof.Machine.execPaint image s
  | .lineData row data fixed pol border => Sys2Proof.Machine.execLineData row data fixed pol border s
  | .readId => Sys2Proof.Machine.execReadId s
  | .oeDisable => Sys2Proof.Machine.execOeDisable s
  | .readBreakage => Sys2Proof.Machine.execReadBreakage s
  | .powerSaving => Sys2Proof.Machine.execPowerSaving s
  | .channelSelect mask => Sys2Proof.Machine.execChannelSelect mask s
  | .oscillatorOn => Sys2Proof.Machine.execOscillatorOn s
  | .powerSetting => Sys2Proof.Machine.execPowerSetting s
  | .vcomLevel => Sys2Proof.Machine.execVcomLevel s
  | .pumpPositive => Sys2Proof.Machine.execPumpPositive s
  | .pumpNegative => Sys2Proof.Machine.execPumpNegative s
  | .pumpVcom => Sys2Proof.Machine.execPumpVcom s
  | .readDcdc => Sys2Proof.Machine.execReadDcdc s
  | .latchResetOn => Sys2Proof.Machine.execLatchResetOn s
  | .powerOffPositive => Sys2Proof.Machine.execPowerOffPositive s
  | .powerOffVcom => Sys2Proof.Machine.execPowerOffVcom s
  | .powerOffAllPumps => Sys2Proof.Machine.execPowerOffAllPumps s
  | .oscillatorOff => Sys2Proof.Machine.execOscillatorOff s
  | .dischargeOn => Sys2Proof.Machine.execDischargeOn s
  | .dischargeOff => Sys2Proof.Machine.execDischargeOff s
  | .oeToPanel => Sys2Proof.Machine.execOeToPanel s
  | .gpioConfigure pin mode => Sys2Proof.Machine.execGpioConfigure pin mode s
  | .gpioWrite pin bit => Sys2Proof.Machine.execGpioWrite pin bit s
  | .gpioRead pin => Sys2Proof.Machine.execGpioRead pin s
  | .xportEnable => Sys2Proof.Machine.execXportEnable s
  | .xportDisable => Sys2Proof.Machine.execXportDisable s
  | .xportSend bytes => Sys2Proof.Machine.execXportSend bytes s
  | .xportRead command n => Sys2Proof.Machine.execXportRead command n s
  | .delayMs n => Sys2Proof.Machine.execDelayMs n s
  | .delayUs n => Sys2Proof.Machine.execDelayUs n s
  | .timerCreate => Sys2Proof.Machine.execTimerCreate s
  | .timerArm ms => Sys2Proof.Machine.execTimerArm ms s
  | .timerQuery => Sys2Proof.Machine.execTimerQuery s

end Sys2Proof.Machine
end

