-- ==== Sys2Proof/Machine/Sequencer.lean ====
section
/-! DEFINITION. The sequencer: which instruction the machine runs next, and where the control state goes after it
(spec/10_state.md R27). Idle, it takes the host's next command; inside an operation, the event at the control state's place in
the pseudocode of 41 R140 to R155, 42 R170 to R181 and 43 R190. -/

namespace Sys2Proof.Machine

/-! ## The straight pieces of pseudocode, event by event -/

/-- PoweringUp, pin part: 15 events (41 R142). -/
def puPinsCode : List Instr :=
  [.gpioWrite .reset false, .gpioWrite .panelOn false, .gpioWrite .discharge false, .gpioWrite .border false,
   .xportEnable, .delayMs 5, .gpioWrite .panelOn true, .delayMs 10, .gpioWrite .reset true, .gpioWrite .border true,
   .delayMs 5, .gpioWrite .reset false, .delayMs 5, .gpioWrite .reset true, .delayMs 5]

/-- Verifying, breakage check (41 R146). -/
def vfBreakageCode : List Instr := [.oeDisable, .readBreakage]

/-- Verifying, register set-up, with the profile's channel-select mask (41 R147). -/
def vfInitCode (mask : List Byte) : List Instr :=
  [.powerSaving, .channelSelect mask, .oscillatorOn, .powerSetting, .vcomLevel]

/-- One charge-pump attempt: 7 events (41 R148). -/
def vfPumpCode : List Instr :=
  [.pumpPositive, .delayMs 240, .pumpNegative, .delayMs 40, .pumpVcom, .delayMs 40, .readDcdc]

/-- Ready (41 R149). -/
def rdFinishCode : List Instr := [.oeDisable, .xportDisable]

/-- PoweringDown, visual flush (41 R151): a dummy line counts once here and is four events. -/
def pdFlushCode (b : PdBorder) : SizeClass → List Instr
  | .s270 => [.gpioWrite .border false, .delayMs 250, .gpioWrite .border true]
  | .s144 => [dummyLine b.b0, .delayMs 40, dummyLine b.b1, .delayMs 200, dummyLine b.b2, .delayMs 25]
  | .s200 => [dummyLine b.b0, .delayMs 40, dummyLine b.b1, .delayMs 200, dummyLine b.b2, .delayMs 25]

/-- PoweringDown, DC/DC re-check (41 R152). -/
def pdCheckCode : List Instr := [.xportEnable, .readDcdc]

/-- PoweringDown, register sequence: 9 events (41 R154). -/
def pdRegsCode : List Instr :=
  [.latchResetOn, .oeDisable, .powerOffPositive, .powerOffVcom, .powerOffAllPumps, .oscillatorOff, .dischargeOn,
   .delayMs 120, .dischargeOff]

/-- PoweringDown, final part before the pulses (41 R155). -/
def pdFinalCode : List Instr := [.gpioWrite .reset false, .gpioWrite .panelOn false, .gpioWrite .border false, .xportDisable]

/-- One discharge pulse (41 R155). -/
def pdPulseCode : List Instr := [.gpioWrite .discharge true, .delayMs 10, .gpioWrite .discharge false, .delayMs 10]

/-! ## Fetch -/

/-- What the machine does next: wait for the host, run an instruction on a state, or stop. -/
inductive Fetch where
  | wait
  | run (i : Instr) (s : State)
  | fault (r : Fault)
  | refused (r : Refusal)

/-- The event at place `k` of a straight piece. -/
def fetchAt (code : List Instr) (k : Nat) (s : State) : Fetch :=
  match code[k]? with
  | some i => .run i s
  | none => .fault .ctlOutOfRange

/-- Image row `pos` for a nominal line of PAINT (42 R177): read from `IMG`, or drawn from the oracle at `pos = L`. -/
def fetchImageLine (p : PanelProfile) (stage : Stage) (pos : Nat) (s : State) : Fetch :=
  if pos < p.linesPerDisplay then
    match Memory.readList s.img (pos * p.bytesPerLine) p.bytesPerLine with
    | some d => .run (.lineData (.row pos) (some d) 0x00 (stagePol stage) 0x00) s
    | none => .fault .imgOutOfRange
  else
    let r := Oracle.drawRowL p.bytesPerLine s.oracle
    .run (.lineData (.row pos) (some r.1) 0x00 (stagePol stage) 0x00) { s with oracle := r.2 }

/-- A nominal line (42 R176 (c), R173). -/
def fetchNominal (p : PanelProfile) (op : FrameOp) (stage : Stage) (pos : Nat) (s : State) : Fetch :=
  match op with
  | .clear => .run (.lineData (.row pos) none (stageFixed stage) (stagePol stage) 0x00) s
  | .paint => fetchImageLine p stage pos s

/-- The line at `(n, w, offset)` of a block-scan stage (42 R174, R176): sentinel, terminator or nominal, tested in that
order. -/
def fetchScan (p : PanelProfile) (c : CompProfile) (op : FrameOp) (stage : Stage) (n : Nat) (w : Int) (offset : Nat)
    (s : State) : Fetch :=
  let pos := w + offset
  if pos < 0 ∨ (p.linesPerDisplay : Int) < pos then .run sentinelLine s
  else if offset = 0 ∧ n + 1 = (stageShape c stage).passes then .run (terminatorLine pos.toNat) s
  else fetchNominal p op stage pos.toNat s

/-- A fetch that reads `profile`, refused where it holds no value (10 R20). -/
def fetchWithProfile (s : State) (k : PanelProfile → Fetch) : Fetch :=
  match s.profile with
  | none => .refused (.readOfUnwritten .profile)
  | some p => k p

/-- A fetch that reads `comp`, refused where it holds no value (10 R20). -/
def fetchWithComp (s : State) (k : CompProfile → Fetch) : Fetch :=
  match s.comp with
  | none => .refused (.readOfUnwritten .comp)
  | some c => k c

/-- The next event of the running operation. Only the places whose rule reads `profile` or `comp` look at them: the
channel-select mask (41 R147), the size class (41 R151), the scan (42 R174) and the time of a pass (42 R179). -/
def fetchOperation (s : State) : Fetch :=
  match s.ctl with
  | .idle => .wait
  | .puPins k => fetchAt puPinsCode k s
  | .puBusy => .run (.gpioRead .busy) s
  | .puWait => .run (.delayUs 10) s
  | .vfId _ => .run .readId s
  | .vfBreakage k => fetchAt vfBreakageCode k s
  | .vfInit k => fetchWithProfile s fun p => fetchAt (vfInitCode p.channelSelect) k s
  | .vfPump _ k => fetchAt vfPumpCode k s
  | .rdFinish k => fetchAt rdFinishCode k s
  | .pdFlush k =>
    fetchWithProfile s fun p =>
      fetchAt (pdFlushCode s.cfg.pdBorder p.sizeClass) k (if k = 0 then { s with pwr := .poweringDown } else s)
  | .pdCheck k => fetchAt pdCheckCode k s
  | .pdRegs k => fetchAt pdRegsCode k s
  | .pdFinal k => fetchAt pdFinalCode k s
  | .pdPulses _ k => fetchAt pdPulseCode k s
  | .scan op stage n w offset =>
    fetchWithProfile s fun p => fetchWithComp s fun c => fetchScan p c op stage n w offset s
  | .passArm _ _ half => fetchWithComp s fun c => .run (.timerArm (halfTime c half)) s
  | .passRow _ _ half row => .run (.lineData (.row row) none (halfFixed half) .normal 0x00) s
  | .passQuery _ _ _ => .run .timerQuery s

/-- The next event of a Line in progress (43 R190, R199): the payload as `LB` holds it, the trailing write, the disable. -/
def fetchLine (phase : LinePhase) (s : State) : Fetch :=
  match phase with
  | .send =>
    fetchWithProfile s fun p =>
      match Memory.readList s.lb 0 (payloadLength p) with
      | none => .refused (.readOfUnwritten .lb)
      | some bytes => .run (.xportSend bytes) s
  | .outputEnable => .run .oeToPanel s
  | .disable => .run .xportDisable s

/-- The host's next command, taken off its queue; with none queued the machine waits (70 R290). -/
def fetchHost (s : State) : Fetch :=
  match s.hostQ with
  | [] => .wait
  | w :: rest =>
    match decode (.host w) with
    | .ok i => .run i { s with hostQ := rest }
    | .error _ => .refused .illFormedCommand

/-- What the machine does next. -/
def fetch (s : State) : Fetch :=
  match s.line with
  | some phase => fetchLine phase s
  | none => if s.ctl = .idle then fetchHost s else fetchOperation s

/-! ## Where the control state goes -/

/-- After the event at place `k` of a straight piece: the next place, or what follows the piece. -/
def afterPiece (code : List Instr) (k : Nat) (stay : Nat → Ctl) (t : State) (done : Result) : Result :=
  if k + 1 < code.length then .next { t with ctl := stay (k + 1) } else done

/-- A tested sample is held no longer (10 R28). -/
def State.forget (t : State) : State := { t with sampled := Sampled.none }

/-- A test of a sampled value, refused where none is held. -/
def testSample {α : Type} (v : Option α) (e : Element) (k : α → Result) : Result :=
  match v with
  | none => .refused (.readOfUnwritten e)
  | some x => k x

/-- After stage 3 the operation returns; after stage 1 comes stage 2, or stage 3 where `stage2_repeat` is 0 (42 R170, R179). -/
def afterStage (c : CompProfile) (op : FrameOp) (stage : Stage) (t : State) : State :=
  match stage with
  | .three => t.finish
  | .one => { t with ctl := if 1 ≤ c.stage2Repeat then .passArm op 1 .first else stageStart op c .three }

/-- A place in a block-scan stage: repeat pass, window start, offset (10 R26). -/
structure ScanPos where
  n : Nat
  w : Int
  offset : Nat
deriving DecidableEq, Repr, Inhabited

/-- The place after `q` in a block-scan stage (42 R174): next offset, next window, next pass, or none at the end. -/
def scanNext (lines : Nat) (sh : ScanShape) (q : ScanPos) : Option ScanPos :=
  if q.offset + 1 < sh.block then some { q with offset := q.offset + 1 }
  else if q.w + sh.step ≤ lines then some ⟨q.n, q.w + sh.step, 0⟩
  else if q.n + 1 < sh.passes then some ⟨q.n + 1, firstWindow sh, 0⟩
  else none

/-- After the line at a place of a block-scan stage. -/
def afterScanLine (p : PanelProfile) (c : CompProfile) (op : FrameOp) (stage : Stage) (q : ScanPos) (t : State) : State :=
  match scanNext p.linesPerDisplay (stageShape c stage) q with
  | some r => { t with ctl := .scan op stage r.n r.w r.offset }
  | none => afterStage c op stage t

/-- After the query of a timed pass (42 R179, R180): another sweep, the second half, the next iteration, or stage 3. -/
def afterQuery (c : CompProfile) (op : FrameOp) (i : Nat) (half : Half) (rem : Nat) (t : State) : State :=
  if !expired rem then { t with ctl := .passRow op i half 0 }
  else
    match half with
    | .first => { t with ctl := .passArm op i .second }
    | .second => { t with ctl := if i < c.stage2Repeat then .passArm op (i + 1) .first else stageStart op c .three }

/-- The control state after an event of the running operation, with the writes of `status`, `pwr` and `from_failed` that
stand between this event and the next (41 R140 to R155, 60 R265). -/
def advanceOperation (t : State) : Result :=
  match t.ctl with
  | .idle => .next t
  | .puPins k => afterPiece puPinsCode k .puPins t (.next { t with ctl := .puBusy })
  | .puBusy =>
    testSample t.sampled.busyS .busyS fun busy =>
      if busy then .next { t.forget with ctl := .puWait }
      else .next { t.forget with pwr := .verifying, ctl := .vfId false }
  | .puWait => .next { t with ctl := .puBusy }
  | .vfId false => .next { t with ctl := .vfId true }
  | .vfId true =>
    testSample t.sampled.id2 .id2 fun id2 =>
      if idOk id2 then .next { t.forget with ctl := .vfBreakage 0 } else .next (t.forget.raiseFail .unsupportedCOG)
  | .vfBreakage k =>
    afterPiece vfBreakageCode k .vfBreakage t
      (testSample t.sampled.brk .brk fun brk =>
        if brkOk t.cfg brk then .next { t.forget with ctl := .vfInit 0 } else .next (t.forget.raiseFail .panelBroken))
  | .vfInit k =>
    withProfile t fun p => afterPiece (vfInitCode p.channelSelect) k .vfInit t (.next { t with ctl := .vfPump 1 0 })
  | .vfPump attempt k =>
    afterPiece vfPumpCode k (.vfPump attempt) t
      (testSample t.sampled.dc .dc fun dc =>
        if dcOk t.cfg dc then .next { t.forget with pwr := .ready, ctl := .rdFinish 0 }
        else if attempt < 4 then .next { t.forget with ctl := .vfPump (attempt + 1) 0 }
        else .next (t.forget.raiseFail .dcFailed))
  | .rdFinish k => afterPiece rdFinishCode k .rdFinish t (.next ({ t with status := some .ok } : State).finish)
  | .pdFlush k =>
    withProfile t fun p =>
      afterPiece (pdFlushCode t.cfg.pdBorder p.sizeClass) k .pdFlush t (.next { t with ctl := .pdCheck 0 })
  | .pdCheck k =>
    afterPiece pdCheckCode k .pdCheck t
      (testSample t.sampled.dc .dc fun dc =>
        if dcOk t.cfg dc then .next { t.forget with ctl := .pdRegs 0 } else .next t.forget.abortToFinal)
  | .pdRegs k => afterPiece pdRegsCode k .pdRegs t (.next { t with ctl := .pdFinal 0 })
  | .pdFinal k => afterPiece pdFinalCode k .pdFinal t (.next { t with ctl := .pdPulses 1 0 })
  | .pdPulses pulse k =>
    afterPiece pdPulseCode k (.pdPulses pulse) t
      (if pulse < 10 then .next { t with ctl := .pdPulses (pulse + 1) 0 } else .next t.endPoweringDown)
  | .scan op stage n w offset => withProfile t fun p => withComp t fun c => .next (afterScanLine p c op stage ⟨n, w, offset⟩ t)
  | .passArm op i half => .next { t with ctl := .passRow op i half 0 }
  | .passRow op i half row =>
    withProfile t fun p =>
      if row + 1 < p.linesPerDisplay then .next { t with ctl := .passRow op i half (row + 1) }
      else .next { t with ctl := .passQuery op i half }
  | .passQuery op i half =>
    testSample t.sampled.rem .rem fun rem => withComp t fun c => .next (afterQuery c op i half rem t.forget)

/-- Where the machine stands after an instruction: `before` is the state it was fetched in, `t` the state it left. Inside a
Line the next of its events comes; a command of the host has set `ctl` itself; else the operation moves on. -/
def advance (before t : State) : Result :=
  match before.line with
  | some .send => .next { t with line := some .outputEnable }
  | some .outputEnable => .next { t with line := some .disable }
  | some .disable => advanceOperation { t with line := none }
  | none =>
    if before.ctl = .idle then .next t
    else if t.line = none then advanceOperation t
    else .next t

end Sys2Proof.Machine
end

