-- ==== Sys2Proof/Machine/Cycle.lean ====
section
/-! DEFINITION. A step of the controller: one event (spec/00_scope.md R11). -/

namespace Sys2Proof.Machine

/-- One instruction: fetch it, run it, move the control state; or wait for the host (70 R290). -/
def runInstruction (s : State) : Result :=
  match fetch s with
  | .wait => .next s
  | .run i s1 =>
    match exec i s1 with
    | .next t => advance s t
    | .fault r => .fault r
    | .refused r => .refused r
  | .fault r => .fault r
  | .refused r => .refused r

/-- One step. A host command that starts an operation has no event of its own (41 R140, R150; 42 R170, R171): its writes are
made in the step of the operation's first event, so that the step emits exactly one event (00 R11). OPEN, CLOSE,
SET_TEMPERATURE and STATUS start none and are over at once. -/
def runStep (s : State) : Result :=
  match runInstruction s with
  | .next t => if s.atIdle && !t.atIdle then runInstruction t else .next t
  | .fault r => .fault r
  | .refused r => .refused r

end Sys2Proof.Machine
end

