-- ==== Sys2Proof/Machine/Step.lean ====
section
/-! DEFINITION. One step (spec/00_scope.md R11), and the placing of a word where the next step fetches. -/

namespace Sys2Proof.Machine

/-- One step: the machine emits the next event of the running operation, or takes the host's next command, or waits. -/
def step (s : State) : Host.Outcome State Fault Refusal := runStep s

/-- `s` with the word's command first in the host's queue and the controller idle, so that the next step issues it. -/
def State.withFetchWord (s : State) (_nbits w : Nat) : State :=
  { s with hostQ := tableHostWord w :: s.hostQ, ctl := .idle, line := none }

end Sys2Proof.Machine
end

