-- ==== Sys2Proof/Safety.lean ====
section
/-! DEFINITION. What a good state is: the invariant of the machine, in the terms the claims use. -/

namespace Sys2Proof.Machine

/-- Both byte spaces are in canonical form. -/
def State.MemoryOk (s : State) : Prop := Memory.wf s.lb = true ∧ Memory.wf s.img = true

/-- The handle's registers agree with one another (10 R21, R22, R23, R29, R32; 40 R130). -/
structure State.HandleOk (s : State) : Prop where
  /-- the configuration meets the constraints of 00 R8 -/
  cfg_ok : s.cfg.ok = true
  /-- a profile is held exactly while a handle exists -/
  handle_profile : s.handleValid = s.profile.isSome
  /-- the timer exists exactly while a handle exists (10 R29) -/
  timer : s.timerValid = s.handleValid
  /-- the profile is the table's row for its size class: "never recomputed after creation" (10 R21) -/
  profile_row : ∀ p, s.profile = some p → p = profileOf s.cfg p.sizeClass
  /-- `LB` has the size of 10 R32 -/
  lb_size : ∀ p, s.profile = some p → s.lbSize = scratchSize p
  /-- the spare byte and what lies beyond it hold no value (10 R32) -/
  lb_spare : ∀ c ∈ s.lb, c.1 + 1 < s.lbSize
  /-- `comp` holds a value exactly while `comp_valid` (10 R22) -/
  comp_valid : s.compValid = s.comp.isSome
  /-- so does `band` -/
  band_valid : s.compValid = s.band.isSome
  /-- `comp` is the table's copy for the profile and the band (10 R22) -/
  comp_row : ∀ c, s.comp = some c → ∃ p b, s.profile = some p ∧ s.band = some b ∧ c = compOf s.cfg p.sizeClass b

/-- The whole payload stands in `LB`, ready to be sent (43 R201). -/
def State.PayloadReady (s : State) : Prop :=
  ∃ p bytes, s.profile = some p ∧ Memory.readList s.lb 0 (payloadLength p) = some bytes

/-- The image of the running PAINT has all its bytes (20 R68). -/
def State.ImageReady (s : State) : Prop :=
  ∃ p, s.profile = some p ∧ ∀ a < imageLength p, (Memory.read s.img a).isSome = true

/-- What a running frame command needs (42 R171, R183): the profile, a selected compensation profile, and for PAINT the
image; and what it leaves alone: `pwr` is Off or Ready and `from_failed` is false (10 R25). -/
structure State.FrameOk (s : State) (op : FrameOp) : Prop where
  comp : s.compValid = true
  image : op = .paint → s.ImageReady
  pwr : s.pwr = .off ∨ s.pwr = .ready
  status : s.pwr = .ready → s.status = some .ok
  failed : s.fromFailed = false

/-- `(n, w, offset)` is a place of the block-scan stage (42 R174, R175). -/
def ScanPlace (lines : Nat) (sh : ScanShape) (q : ScanPos) : Prop :=
  q.n < sh.passes ∧ (∃ j : Nat, q.w = firstWindow sh + j * sh.step) ∧ q.w ≤ lines ∧ q.offset < sh.block

/-- BEGIN is running its checks in `pwr` state `v`, with the transport enabled (41 R142) and `status` still OK. -/
structure State.BeginOk (s : State) (v : Pwr) : Prop where
  pwr : s.pwr = v
  status : s.status = some .ok
  failed : s.fromFailed = false
  line : s.line = none

/-- What holds at each place of the pseudocode (10 R25, R27; 41 R141). -/
def State.PhaseOk (s : State) : Prop :=
  match s.ctl with
  | .idle =>
    s.line = none ∧ (s.pwr = .off ∨ s.pwr = .ready) ∧ s.fromFailed = false ∧
      (s.handleValid = true → s.pwr = .ready → s.status = some .ok)
  | .puPins k => k < puPinsCode.length ∧ s.BeginOk .poweringUp ∧ (5 ≤ k → s.xportEn = some true)
  | .puBusy => s.BeginOk .poweringUp ∧ s.xportEn = some true
  | .puWait => s.BeginOk .poweringUp ∧ s.xportEn = some true
  | .vfId _ => s.BeginOk .verifying ∧ s.xportEn = some true
  | .vfBreakage k => k < vfBreakageCode.length ∧ s.BeginOk .verifying ∧ s.xportEn = some true
  | .vfInit k => k < 5 ∧ s.BeginOk .verifying ∧ s.xportEn = some true
  | .vfPump a k => 1 ≤ a ∧ a ≤ 4 ∧ k < vfPumpCode.length ∧ s.BeginOk .verifying ∧ s.xportEn = some true
  | .rdFinish k => k < rdFinishCode.length ∧ s.BeginOk .ready ∧ s.xportEn = some true
  | .pdFlush k =>
    (∃ p, s.profile = some p ∧ k < (pdFlushCode s.cfg.pdBorder p.sizeClass).length ∧
      (s.line ≠ none → p.sizeClass ≠ .s270 ∧ k % 2 = 0)) ∧
    (if k = 0 ∧ s.line = none then
      s.fromFailed = true → ∃ kind, s.pwr = .failed kind ∧ s.status = some (statusOf kind)
     else s.pwr = .poweringDown)
  | .pdCheck k => k < pdCheckCode.length ∧ s.line = none ∧ s.pwr = .poweringDown ∧ (1 ≤ k → s.xportEn = some true)
  | .pdRegs k => k < pdRegsCode.length ∧ s.line = none ∧ s.pwr = .poweringDown ∧ s.xportEn = some true
  | .pdFinal k => k < pdFinalCode.length ∧ s.line = none ∧ s.pwr = .poweringDown
  | .pdPulses u k => 1 ≤ u ∧ u ≤ 10 ∧ k < pdPulseCode.length ∧ s.line = none ∧ s.pwr = .poweringDown
  | .scan op stage n w offset =>
    s.FrameOk op ∧ ∃ p c, s.profile = some p ∧ s.comp = some c ∧
      ScanPlace p.linesPerDisplay (stageShape c stage) ⟨n, w, offset⟩
  | .passArm op i _ => s.FrameOk op ∧ s.line = none ∧ ∃ c, s.comp = some c ∧ 1 ≤ i ∧ i ≤ c.stage2Repeat
  | .passRow op i _ row =>
    s.FrameOk op ∧ ∃ p c, s.profile = some p ∧ s.comp = some c ∧ 1 ≤ i ∧ i ≤ c.stage2Repeat ∧ row < p.linesPerDisplay
  | .passQuery op i _ => s.FrameOk op ∧ s.line = none ∧ ∃ c, s.comp = some c ∧ 1 ≤ i ∧ i ≤ c.stage2Repeat

/-- A sampled value is held only until the test that follows it; between steps only `id1`, which no rule tests (10 R28). -/
def State.SampledOk (s : State) : Prop :=
  if s.ctl = .vfId true then ∃ v, s.sampled = { Sampled.none with id1 := some v } else s.sampled = Sampled.none

/-- Inside a Line the transport is enabled (43 R200) and the payload is in `LB` until it is sent. -/
def State.LineOk (s : State) : Prop :=
  (s.line ≠ none → s.xportEn = some true) ∧ (s.line = some .send → s.PayloadReady)

/-- The invariant of the machine. -/
structure State.Inv (s : State) : Prop where
  memory : s.MemoryOk
  handle : s.HandleOk
  running : s.ctl ≠ .idle → s.handleValid = true
  phase : s.PhaseOk
  sampled : s.SampledOk
  line : s.LineOk

/-! ## Runs and walks -/

/-- No operation runs (10 R27): the host may issue a command. -/
def State.Quiet (s : State) : Prop := s.ctl = .idle ∧ s.line = none

/-- `n` steps from `s` end in `t`. -/
def Runs (n : Nat) (s t : State) : Prop := Host.Core.run Sys2Proof.core n s = .next t

/-- The first place of a block-scan stage (42 R174). -/
def scanStart (sh : ScanShape) : ScanPos := ⟨0, firstWindow sh, 0⟩

/-- The places a block-scan stage goes through from `q`, at most `fuel` of them. -/
def scanWalk (lines : Nat) (sh : ScanShape) : Nat → ScanPos → List ScanPos
  | 0, _ => []
  | fuel + 1, q =>
    q :: (match scanNext lines sh q with
          | some r => scanWalk lines sh fuel r
          | none => [])

/-- The constraint on a block-scan stage (42 R178). -/
def ScanShape.Ok (sh : ScanShape) : Prop := 1 ≤ sh.passes ∧ 1 ≤ sh.step ∧ sh.step ≤ sh.block

/-- The number of windows of one pass (42 R175). -/
def windowCount (lines : Nat) (sh : ScanShape) : Nat := (lines + sh.block - sh.step) / sh.step + 1

/-- The number of lines of a block-scan stage (42 R175). -/
def scanLineCount (lines : Nat) (sh : ScanShape) : Nat := sh.passes * windowCount lines sh * sh.block

/-! ## Kinds of instruction -/

/-- The host commands (format H). -/
def isHostCommand : Instr → Bool
  | .openPanel _ | .close | .setTemperature _ | .status | .begin | .endPower | .clear | .paint _ => true
  | _ => false

/-- The instructions that hand bytes to the transport: a send, a read, a COG command (10 R30, 44 R224, R225). -/
def usesTransport : Instr → Bool
  | .xportSend _ | .xportRead _ _ => true
  | .readId | .oeDisable | .readBreakage | .powerSaving | .channelSelect _ | .oscillatorOn | .powerSetting => true
  | .vcomLevel | .pumpPositive | .pumpNegative | .pumpVcom | .readDcdc | .latchResetOn | .powerOffPositive => true
  | .powerOffVcom | .powerOffAllPumps | .oscillatorOff | .dischargeOn | .dischargeOff | .oeToPanel => true
  | _ => false

/-- The refusals of 30 R108 and of a word that is no command: what the host can bring about by breaking its contract. -/
def Refusal.hostMade : Refusal → Bool
  | .noHandle | .alreadyOpen | .badImageLength | .noCompensation | .busy | .illFormedCommand => true
  | _ => false

end Sys2Proof.Machine
end

