-- ==== Sys2Proof/Certificates/Slice0/Obligations.lean ====
section
/-! DEFINITION. The statements for the provers. Each docstring names the rule of spec/ it formalises. -/

open Sys2Proof Sys2Proof.Machine

/-! ## Encoding -/

/-- Every well-formed instruction decodes from its encoding, and whatever decodes is well formed and encodes back to what was
decoded (30 R90, R91, R99, R100, R104). -/
def Obligations.DecodeEncodeAgree : Prop :=
  (∀ i, wellFormed i = true → decode (encode i) = .ok i) ∧
  (∀ c i, decode c = .ok i → wellFormed i = true ∧ encode i = c)

/-- The eight op codes of 30 R91 and one word of each other format. -/
def Obligations.SampleWordsDecode : Prop :=
  (∀ sel, decode (.host ⟨0b000, .selector sel⟩) = .ok (.openPanel sel)) ∧
  decode (.host ⟨0b001, .none⟩) = .ok .close ∧
  (∀ t, decode (.host ⟨0b010, .celsius t⟩) = .ok (.setTemperature t)) ∧
  decode (.host ⟨0b011, .none⟩) = .ok .status ∧
  decode (.host ⟨0b100, .none⟩) = .ok .begin ∧
  decode (.host ⟨0b101, .none⟩) = .ok .endPower ∧
  decode (.host ⟨0b110, .none⟩) = .ok .clear ∧
  (∀ img, decode (.host ⟨0b111, .image img⟩) = .ok (.paint img)) ∧
  decode (.line (.row 5) none 0xff .inverse 0x00) = .ok (.lineData (.row 5) none 0xff .inverse 0x00) ∧
  decode (.cog (.read .readId) []) = .ok .readId ∧
  decode (.cog (.write .oscillatorOff) []) = .ok .oscillatorOff ∧
  decode (.event .gpioWrite [.pin .reset, .bit true]) = .ok (.gpioWrite .reset true) ∧
  decode (.event .timerQuery []) = .ok .timerQuery

/-! ## Fetch and step -/

/-- A step runs what the sequencer fetched. Idle, that is the instruction the host's next word decodes to: the step is `exec` of
it on the state with the word taken off the queue, and where that starts an operation, it goes on to be the step of the state
so reached, which is the operation's first event (00 R11; assumption 8). Inside an operation the control state moves on after
the instruction; with nothing to run the machine waits (00 R10, 10 R27, 70 R290). -/
def Obligations.StepRunsDecodedInstruction : Prop :=
  (∀ (s : State) w rest i, s.Quiet → s.hostQ = w :: rest → decode (.host w) = .ok i →
    (∀ t, exec i { s with hostQ := rest } = .next t → t.Quiet → step s = .next t) ∧
    (∀ t, exec i { s with hostQ := rest } = .next t → ¬ t.Quiet → step s = step t) ∧
    (∀ r, exec i { s with hostQ := rest } = .refused r → step s = .refused r)) ∧
  (∀ (s s1 : State) i, ¬ s.Quiet → fetch s = .run i s1 →
    step s = match exec i s1 with
      | .next t => advance s t
      | .fault r => .fault r
      | .refused r => .refused r) ∧
  (∀ s : State, s.Quiet → s.hostQ = [] → step s = .next s)

/-- A word of the opcode table placed where the next step fetches runs as the instruction it decodes to (30 R91, R105), and an
operation it starts goes on to its first event in the same step (00 R11; assumption 8). -/
def Obligations.TableWordRunsNext : Prop :=
  ∀ (s : State) (nbits w : Nat) i, decodeTableWord nbits w = some i →
    (∀ t, exec i { s with ctl := .idle, line := none } = .next t → t.Quiet → step (s.withFetchWord nbits w) = .next t) ∧
    (∀ t, exec i { s with ctl := .idle, line := none } = .next t → ¬ t.Quiet → step (s.withFetchWord nbits w) = step t) ∧
    (∀ r, exec i { s with ctl := .idle, line := none } = .refused r → step (s.withFetchWord nbits w) = .refused r)

/-! ## Reset and the invariant -/

/-- What hardware reset leaves (10 R20, R37; 70 R290). -/
def Obligations.ResetValues : Prop :=
  State.reset.handleValid = false ∧ State.reset.compValid = false ∧ State.reset.timerValid = false ∧
  State.reset.pwr = .off ∧ State.reset.fromFailed = false ∧ State.reset.ctl = .idle ∧ State.reset.line = none ∧
  State.reset.trace = [] ∧ State.reset.profile = none ∧ State.reset.band = none ∧ State.reset.comp = none ∧
  State.reset.status = none ∧ State.reset.pinOut = ⟨none, none, none, none⟩ ∧ State.reset.xportEn = none ∧
  State.reset.lbSize = 0 ∧ (∀ a, Memory.read State.reset.lb a = none) ∧ State.reset.sampled = Sampled.none

/-- The invariant holds after reset. -/
def Obligations.ResetMeetsInvariant : Prop := State.reset.Inv

/-- Every step keeps the invariant, from every state that meets it. -/
def Obligations.StepKeepsInvariant : Prop := ∀ s t : State, s.Inv → step s = .next t → t.Inv

/-- From a state that meets the invariant a step never faults; it can be refused only while no operation runs, and only
because the host broke its contract (60 R261, R280; 30 R108). -/
def Obligations.OnlyTheHostIsRefused : Prop :=
  ∀ s : State, s.Inv →
    (∃ t, step s = .next t) ∨ (s.Quiet ∧ ∃ r, step s = .refused r ∧ r.hostMade = true)

/-- Whatever hands bytes to the transport runs with `xport_en = true`; no pin is written without a handle and no timer armed
without `timer_valid` (10 R30; 44 R211, R215, R220, R224). -/
def Obligations.InterfaceUsedWhenEnabled : Prop :=
  ∀ (s s1 : State) i, s.Inv → fetch s = .run i s1 →
    (usesTransport i = true → s1.xportEn = some true) ∧ ((∃ p b, i = .gpioWrite p b) → s1.handleValid = true) ∧
    ((∃ ms, i = .timerArm ms) → s1.timerValid = true)

/-- Every step of an operation emits exactly one event, the first included, which is the step that takes the command off the
queue (00 R11). Idle besides, the step of an OPEN emits one `TimerCreate` or nothing (40 R122), and that of a CLOSE, a
SET_TEMPERATURE or a STATUS nothing (40 R123, R124, R127). -/
def Obligations.OneEventPerStep : Prop :=
  ∀ s t : State, step s = .next t →
    (¬ s.Quiet → ∃ e, t.trace = s.trace ++ [e]) ∧
    (∀ w rest i, s.Quiet → s.hostQ = w :: rest → decode (.host w) = .ok i →
      (i = .begin ∨ i = .endPower ∨ i = .clear ∨ (∃ img, i = .paint img) → ∃ e, t.trace = s.trace ++ [e]) ∧
      ((∃ sel, i = .openPanel sel) → t.trace = s.trace ∨ ∃ ok, t.trace = s.trace ++ [.timerCreate ok]) ∧
      (i = .close ∨ (∃ c, i = .setTemperature c) ∨ i = .status → t.trace = s.trace)) ∧
    (s.Quiet → s.hostQ = [] → t.trace = s.trace)

/-! ## Session commands -/

/-- The resolver's table (40 R121). -/
def Obligations.ResolveTable : Prop :=
  ∀ cfg : Cfg,
    resolve cfg 0 = some ⟨.s144, 96, 128, 16, 24, cfg.chsel144⟩ ∧
    resolve cfg 1 = some ⟨.s200, 96, 200, 25, 24, [0x72, 0x00, 0x00, 0x00, 0x00, 0x01, 0xff, 0xe0, 0x00]⟩ ∧
    resolve cfg 2 = some ⟨.s270, 176, 264, 33, 44, cfg.chsel270⟩ ∧
    (∀ sel, 3 ≤ sel → resolve cfg sel = none)

/-- The derived counts of every profile the resolver returns (40 R130). -/
def Obligations.DerivedCountsConsistent : Prop :=
  ∀ (cfg : Cfg) sel p, resolve cfg sel = some p →
    8 * p.bytesPerLine = p.dotsPerLine ∧ 4 * p.bytesPerScan = p.linesPerDisplay ∧
    scratchSize p = 2 * p.bytesPerLine + p.bytesPerScan + 3 ∧
    (scratchSize p = 59 ∨ scratchSize p = 77 ∨ scratchSize p = 113)

/-- OPEN (40 R122): refused with a handle; an unsupported size changes nothing but the result; a false answer for the timer,
then for the buffer, is AllocationFailed; else the handle. -/
def Obligations.OpenCreatesHandle : Prop :=
  ∀ (s : State) sel, s.Quiet →
    (s.handleValid = true → exec (.openPanel sel) s = .refused .alreadyOpen) ∧
    (s.handleValid = false →
      (resolve s.cfg sel = none → exec (.openPanel sel) s = .next { s with result := some .unsupportedSize }) ∧
      (∀ p, resolve s.cfg sel = some p →
        (s.oracle.askTimerCreate = false →
          exec (.openPanel sel) s = .next
            { s with
              trace := s.trace ++ [.timerCreate false]
              oracle := s.oracle.afterTimerCreate
              result := some .allocationFailed }) ∧
        (s.oracle.askTimerCreate = true → s.oracle.afterTimerCreate.askBuffer = false →
          exec (.openPanel sel) s = .next
            { s with
              trace := s.trace ++ [.timerCreate true]
              oracle := s.oracle.afterTimerCreate.afterBuffer
              result := some .allocationFailed }) ∧
        (s.oracle.askTimerCreate = true → s.oracle.afterTimerCreate.askBuffer = true →
          exec (.openPanel sel) s = .next
            { s with
              trace := s.trace ++ [.timerCreate true]
              oracle := s.oracle.afterTimerCreate.afterBuffer
              result := some .opened
              profile := some p
              timerValid := true
              lbSize := 2 * p.bytesPerLine + p.bytesPerScan + 3
              lb := []
              compValid := false
              band := none
              comp := none
              status := none
              pwr := .off
              fromFailed := false
              handleValid := true })))

/-- CLOSE (40 R123). -/
def Obligations.CloseDestroysHandle : Prop :=
  ∀ s : State, s.Quiet →
    (s.handleValid = false → exec .close s = .refused .noHandle) ∧
    (s.handleValid = true →
      exec .close s = .next
        { s with
          handleValid := false
          timerValid := false
          compValid := false
          profile := none
          band := none
          comp := none
          status := none
          lbSize := 0
          lb := []
          result := none })

/-- SET_TEMPERATURE with the band of 40 R126 and the field of `COMP` that size class and band name (40 R125, R127). -/
def Obligations.SetTemperatureSelectsBand : Prop :=
  ∀ (s : State) (celsius : Int), s.Quiet →
    (s.handleValid = false → exec (.setTemperature celsius) s = .refused .noHandle) ∧
    (∀ (p : PanelProfile) (b : Band) (c : CompProfile), s.handleValid = true → s.profile = some p →
      ((celsius < 10 ∧ b = 0) ∨ (10 ≤ celsius ∧ celsius ≤ 40 ∧ b = 1) ∨ (40 < celsius ∧ b = 2)) →
      (p.sizeClass, b, c) ∈
        [(SizeClass.s144, (0 : Band), s.cfg.comp.s144.band0), (.s144, 1, s.cfg.comp.s144.band1),
         (.s144, 2, s.cfg.comp.s144.band2), (.s200, 0, s.cfg.comp.s200.band0), (.s200, 1, s.cfg.comp.s200.band1),
         (.s200, 2, s.cfg.comp.s200.band2), (.s270, 0, s.cfg.comp.s270.band0), (.s270, 1, s.cfg.comp.s270.band1),
         (.s270, 2, s.cfg.comp.s270.band2)] →
      exec (.setTemperature celsius) s = .next
        { s with
          band := some b
          comp := some c
          compValid := true
          result := none })

/-- Two equal SET_TEMPERATURE commands leave what one leaves, and two temperatures of one band the same `comp` (40 R128). -/
def Obligations.SetTemperatureIdempotent : Prop :=
  (∀ (s t : State) celsius, exec (.setTemperature celsius) s = .next t → exec (.setTemperature celsius) t = .next t) ∧
  (∀ (s t u : State) c1 c2, bandOf c1 = bandOf c2 →
    exec (.setTemperature c1) s = .next t → exec (.setTemperature c2) s = .next u → t.comp = u.comp)

/-- STATUS (40 R124): the value held; where none is held, the oracle's, whichever of the four it is. Nothing else changes but
the answer drawn. -/
def Obligations.StatusReadsFlag : Prop :=
  ∀ s : State, s.Quiet →
    (s.handleValid = false → exec .status s = .refused .noHandle) ∧
    (s.handleValid = true →
      (∀ v, s.status = some v → exec .status s = .next { s with result := some (.status v) }) ∧
      (s.status = none →
        (∃ v, exec .status s = .next { s with result := some (.status v), oracle := s.oracle.afterStatus }) ∧
        (∀ v rest, s.oracle.status = v :: rest →
          exec .status s = .next { s with result := some (.status v), oracle := s.oracle.afterStatus })))

/-- The codes the host sees (30 R93). -/
def Obligations.ResultCodes : Prop :=
  statusCode .ok = 0 ∧ statusCode .unsupportedCOG = 1 ∧ statusCode .panelBroken = 2 ∧ statusCode .dcFailed = 3 ∧
  resultCode .opened = 0 ∧ resultCode .unsupportedSize = 1 ∧ resultCode .allocationFailed = 2 ∧
  ∀ v, resultCode (.status v) = statusCode v

/-- The refusals of 30 R108. A held profile that breaks the constraint of 42 R178 is in `FrameCommandsIssued`. -/
def Obligations.HostCommandRefusals : Prop :=
  (∀ (s : State) i, isHostCommand i = true → (∀ sel, i ≠ .openPanel sel) → s.Quiet → s.handleValid = false →
    exec i s = .refused .noHandle) ∧
  (∀ (s : State) sel, s.Quiet → s.handleValid = true → exec (.openPanel sel) s = .refused .alreadyOpen) ∧
  (∀ (s : State) img p c, s.Quiet → s.handleValid = true → s.compValid = true → s.comp = some c → c.ok = true →
    s.profile = some p → img.length ≠ p.bytesPerLine * p.linesPerDisplay → exec (.paint img) s = .refused .badImageLength) ∧
  (∀ s : State, s.Quiet → s.handleValid = true → s.compValid = false →
    exec .clear s = .refused .noCompensation ∧ ∀ img, exec (.paint img) s = .refused .noCompensation) ∧
  (∀ (s : State) i, isHostCommand i = true → s.ctl ≠ .idle → exec i s = .refused .busy)

/-! ## Power sequencer -/

/-- BEGIN and END (41 R140, R150): the first lines of their pseudocode, which `exec` of the command does, and the whole first
step, which goes on to the operation's first event (41 R142, R151; assumption 8): the reset pin low; on S270 the border pin low;
on the others the enable of the first dummy line. -/
def Obligations.PowerCommandsIssued : Prop :=
  ∀ s : State, s.Quiet → s.handleValid = true →
    exec .begin s = .next { s with status := some .ok, pwr := .poweringUp, ctl := .puPins 0, result := none } ∧
    exec .endPower s = .next { s with status := some .ok, fromFailed := false, ctl := .pdFlush 0, result := none } ∧
    (∀ w rest, s.hostQ = w :: rest → decode (.host w) = .ok .begin →
      step s = .next
        { s with
          hostQ := rest
          result := none
          status := some .ok
          pwr := .poweringUp
          trace := s.trace ++ [.gpioWrite .reset false]
          pinOut := { s.pinOut with reset := some false }
          ctl := .puPins 1 }) ∧
    (∀ w rest p, s.hostQ = w :: rest → decode (.host w) = .ok .endPower → s.profile = some p →
      (p.sizeClass = .s270 →
        step s = .next
          { s with
            hostQ := rest
            result := none
            status := some .ok
            fromFailed := false
            pwr := .poweringDown
            trace := s.trace ++ [.gpioWrite .border false]
            pinOut := { s.pinOut with border := some false }
            ctl := .pdFlush 1 }) ∧
      (p.sizeClass ≠ .s270 → payloadLength p ≤ s.lbSize →
        ∃ lb, step s = .next
          { s with
            hostQ := rest
            result := none
            status := some .ok
            fromFailed := false
            pwr := .poweringDown
            trace := s.trace ++ [.xportEnable]
            xportEn := some true
            lb := lb
            line := some .send
            ctl := .pdFlush 0 }))

/-- PoweringUp, pin part: 15 events (41 R142). -/
def Obligations.PinSequenceOfPoweringUp : Prop :=
  ∀ s : State, s.ctl = .puPins 0 → s.line = none →
    Runs 15 s
      { s with
        trace := s.trace ++
          [.gpioWrite .reset false, .gpioWrite .panelOn false, .gpioWrite .discharge false, .gpioWrite .border false,
           .xportEnable, .delayMs 5, .gpioWrite .panelOn true, .delayMs 10, .gpioWrite .reset true, .gpioWrite .border true,
           .delayMs 5, .gpioWrite .reset false, .delayMs 5, .gpioWrite .reset true, .delayMs 5]
        pinOut := { panelOn := some true, border := some true, discharge := some false, reset := some true }
        xportEn := some true
        ctl := .puBusy }

/-- The busy poll (41 R143): read first; while the line reads 1, wait 10 microseconds and read again; after `n` ones it is
still polling, whatever `n`; the first 0 ends it. -/
def Obligations.BusyPollHasNoBound : Prop :=
  ∀ (n : Nat) (s : State), s.ctl = .puBusy → s.line = none →
    (∀ rest, s.oracle.busy = List.replicate n true ++ rest →
      ∃ t, Runs (2 * n) s t ∧ t.ctl = .puBusy ∧ t.line = none ∧ t.profile = s.profile ∧ t.oracle.busy = rest ∧
        t.pwr = s.pwr ∧ t.status = s.status ∧
        t.trace = s.trace ++ (List.replicate n [Event.gpioRead .busy true, .delayUs 10]).flatten) ∧
    (∀ rest, s.oracle.busy = List.replicate n true ++ false :: rest →
      ∃ t, Runs (2 * n + 1) s t ∧ t.ctl = .vfId false ∧ t.line = none ∧ t.pwr = .verifying ∧ t.oracle.busy = rest ∧
        t.status = s.status ∧
        t.trace = s.trace ++ (List.replicate n [Event.gpioRead .busy true, .delayUs 10]).flatten ++
          [.gpioRead .busy false])

/-- The identity reads and their check (41 R144, R145): both reads are emitted, the first is not tested, and the low four
bits of the second decide. -/
def Obligations.IdentityCheck : Prop :=
  ∀ (s : State) v1 v2, s.ctl = .vfId false → s.line = none →
    s.oracle.askCog = v1 → s.oracle.afterCog.askCog = v2 →
    (v2 &&& 0x0f = 0x02 →
      Runs 2 s
        { s with
          trace := s.trace ++ [.cogRead .readId v1, .cogRead .readId v2]
          oracle := s.oracle.afterCog.afterCog
          sampled := Sampled.none
          ctl := .vfBreakage 0 }) ∧
    (v2 &&& 0x0f ≠ 0x02 →
      Runs 2 s
        { s with
          trace := s.trace ++ [.cogRead .readId v1, .cogRead .readId v2]
          oracle := s.oracle.afterCog.afterCog
          sampled := Sampled.none
          status := some .unsupportedCOG
          pwr := .failed .unsupportedCOG
          fromFailed := true
          ctl := .pdFlush 0 })

/-- The breakage check (41 R146). -/
def Obligations.BreakageCheck : Prop :=
  ∀ (s : State) v, s.ctl = .vfBreakage 0 → s.line = none → s.oracle.askCog = v →
    (v &&& s.cfg.breakageMask ≠ 0 →
      Runs 2 s
        { s with
          trace := s.trace ++ [.cogWrite .oeDisable [], .cogRead .readBreakage v]
          oracle := s.oracle.afterCog
          sampled := Sampled.none
          ctl := .vfInit 0 }) ∧
    (v &&& s.cfg.breakageMask = 0 →
      Runs 2 s
        { s with
          trace := s.trace ++ [.cogWrite .oeDisable [], .cogRead .readBreakage v]
          oracle := s.oracle.afterCog
          sampled := Sampled.none
          status := some .panelBroken
          pwr := .failed .panelBroken
          fromFailed := true
          ctl := .pdFlush 0 })

/-- The register set-up (41 R147): five writes in a fixed order, no delay between them. -/
def Obligations.RegisterSetUp : Prop :=
  ∀ (s : State) p, s.ctl = .vfInit 0 → s.line = none → s.profile = some p →
    Runs 5 s
      { s with
        trace := s.trace ++
          [.cogWrite .powerSaving [], .cogWrite .channelSelect p.channelSelect, .cogWrite .oscillatorOn [],
           .cogWrite .powerSetting [], .cogWrite .vcomLevel []]
        ctl := .vfPump 1 0 }

/-- One charge-pump attempt (41 R148): seven events; success moves on, failure tries again up to the fourth attempt, and the
fourth failure is DCFailed. -/
def Obligations.ChargePumpAttempt : Prop :=
  ∀ (s : State) attempt v, 1 ≤ attempt → attempt ≤ 4 → s.ctl = .vfPump attempt 0 → s.line = none →
    s.oracle.askCog = v →
    ∃ t, Runs 7 s t ∧
      t.trace = s.trace ++
        [.cogWrite .pumpPositive [], .delayMs 240, .cogWrite .pumpNegative [], .delayMs 40, .cogWrite .pumpVcom [],
         .delayMs 40, .cogRead .readDcdc v] ∧
      t.oracle = s.oracle.afterCog ∧ t.line = none ∧ t.profile = s.profile ∧ t.xportEn = s.xportEn ∧ t.pinOut = s.pinOut ∧
      t.cfg = s.cfg ∧
      (v &&& s.cfg.dcdcMask ≠ 0 → t.ctl = .rdFinish 0 ∧ t.pwr = .ready ∧ t.status = s.status ∧ t.fromFailed = s.fromFailed) ∧
      (v &&& s.cfg.dcdcMask = 0 → attempt < 4 →
        t.ctl = .vfPump (attempt + 1) 0 ∧ t.pwr = s.pwr ∧ t.status = s.status ∧ t.fromFailed = s.fromFailed) ∧
      (v &&& s.cfg.dcdcMask = 0 → attempt = 4 →
        t.ctl = .pdFlush 0 ∧ t.pwr = .failed .dcFailed ∧ t.status = some .dcFailed ∧ t.fromFailed = true)

/-- A BEGIN on a good panel from its issue to its return (41 R140, R142 to R149): 34 steps of one event each, the busy line
reading 0 at once and the first DC/DC read good. -/
def Obligations.BeginOnGoodPanel : Prop :=
  ∀ (s : State) p w rest id1 id2 brk dc, s.Quiet → s.handleValid = true → s.profile = some p →
    s.hostQ = w :: rest → decode (.host w) = .ok .begin →
    s.oracle.askBusy = false →
    s.oracle.afterBusy.askCog = id1 → s.oracle.afterBusy.afterCog.askCog = id2 →
    s.oracle.afterBusy.afterCog.afterCog.askCog = brk → s.oracle.afterBusy.afterCog.afterCog.afterCog.askCog = dc →
    id2 &&& 0x0f = 0x02 → brk &&& s.cfg.breakageMask ≠ 0 → dc &&& s.cfg.dcdcMask ≠ 0 →
    Runs 34 s
      { s with
        hostQ := rest
        result := none
        status := some .ok
        pwr := .ready
        ctl := .idle
        sampled := Sampled.none
        xportEn := some false
        pinOut := { panelOn := some true, border := some true, discharge := some false, reset := some true }
        oracle := s.oracle.afterBusy.afterCog.afterCog.afterCog.afterCog
        trace := s.trace ++
          [.gpioWrite .reset false, .gpioWrite .panelOn false, .gpioWrite .discharge false, .gpioWrite .border false,
           .xportEnable, .delayMs 5, .gpioWrite .panelOn true, .delayMs 10, .gpioWrite .reset true, .gpioWrite .border true,
           .delayMs 5, .gpioWrite .reset false, .delayMs 5, .gpioWrite .reset true, .delayMs 5,
           .gpioRead .busy false, .cogRead .readId id1, .cogRead .readId id2, .cogWrite .oeDisable [],
           .cogRead .readBreakage brk, .cogWrite .powerSaving [], .cogWrite .channelSelect p.channelSelect,
           .cogWrite .oscillatorOn [], .cogWrite .powerSetting [], .cogWrite .vcomLevel [],
           .cogWrite .pumpPositive [], .delayMs 240, .cogWrite .pumpNegative [], .delayMs 40, .cogWrite .pumpVcom [],
           .delayMs 40, .cogRead .readDcdc dc, .cogWrite .oeDisable [], .xportDisable] }

/-- The visual flush (41 R151): on S270 the border pulse; on the others three dummy lines, each with its delay, whose
payloads carry the border bytes of PD_BORDER, no row and no pixel. -/
def Obligations.VisualFlush : Prop :=
  ∀ (s : State) p, s.ctl = .pdFlush 0 → s.line = none → s.profile = some p → s.lbSize = scratchSize p →
    (p.sizeClass = .s270 →
      Runs 3 s
        { s with
          trace := s.trace ++ [.gpioWrite .border false, .delayMs 250, .gpioWrite .border true]
          pinOut := s.pinOut.set .border true
          pwr := .poweringDown
          ctl := .pdCheck 0 }) ∧
    (p.sizeClass ≠ .s270 →
      ∃ lb, (∀ a, payloadLength p ≤ a → Memory.read lb a = Memory.read s.lb a) ∧
        Runs 15 s
          { s with
            trace := s.trace ++
              [.xportEnable, .xportSend (lineBytes s.cfg p .noRow none 0x00 .normal s.cfg.pdBorder.b0),
               .cogWrite .oeToPanel [], .xportDisable, .delayMs 40,
               .xportEnable, .xportSend (lineBytes s.cfg p .noRow none 0x00 .normal s.cfg.pdBorder.b1),
               .cogWrite .oeToPanel [], .xportDisable, .delayMs 200,
               .xportEnable, .xportSend (lineBytes s.cfg p .noRow none 0x00 .normal s.cfg.pdBorder.b2),
               .cogWrite .oeToPanel [], .xportDisable, .delayMs 25]
            lb := lb
            xportEn := some false
            pwr := .poweringDown
            ctl := .pdCheck 0 })

/-- The DC/DC re-check (41 R152, R153): a failing one is DCFailed only where no BEGIN failed before, and skips the register
sequence. -/
def Obligations.PowerDownRecheck : Prop :=
  ∀ (s : State) v, s.ctl = .pdCheck 0 → s.line = none → s.oracle.askCog = v →
    (v &&& s.cfg.dcdcMask ≠ 0 →
      Runs 2 s
        { s with
          trace := s.trace ++ [.xportEnable, .cogRead .readDcdc v]
          oracle := s.oracle.afterCog
          sampled := Sampled.none
          xportEn := some true
          ctl := .pdRegs 0 }) ∧
    (v &&& s.cfg.dcdcMask = 0 →
      Runs 2 s
        { s with
          trace := s.trace ++ [.xportEnable, .cogRead .readDcdc v]
          oracle := s.oracle.afterCog
          sampled := Sampled.none
          xportEn := some true
          status := if s.fromFailed = true then s.status else some .dcFailed
          ctl := .pdFinal 0 })

/-- The register sequence of PoweringDown: nine events (41 R154). -/
def Obligations.PowerDownRegisters : Prop :=
  ∀ s : State, s.ctl = .pdRegs 0 → s.line = none →
    Runs 9 s
      { s with
        trace := s.trace ++
          [.cogWrite .latchResetOn [], .cogWrite .oeDisable [], .cogWrite .powerOffPositive [], .cogWrite .powerOffVcom [],
           .cogWrite .powerOffAllPumps [], .cogWrite .oscillatorOff [], .cogWrite .dischargeOn [], .delayMs 120,
           .cogWrite .dischargeOff []]
        ctl := .pdFinal 0 }

/-- The final part of PoweringDown: 44 events, all pins low, the transport off, `pwr` Off, the operation over (41 R155; and
60 R265's end of the failure path). -/
def Obligations.PowerDownFinalPart : Prop :=
  ∀ s : State, s.ctl = .pdFinal 0 → s.line = none →
    Runs 44 s
      { s with
        trace := s.trace ++
          ([Event.gpioWrite .reset false, .gpioWrite .panelOn false, .gpioWrite .border false, .xportDisable] ++
            (List.replicate 10
              [Event.gpioWrite .discharge true, .delayMs 10, .gpioWrite .discharge false, .delayMs 10]).flatten)
        pinOut := { panelOn := some false, border := some false, discharge := some false, reset := some false }
        xportEn := some false
        pwr := .off
        fromFailed := false
        sampled := Sampled.none
        ctl := .idle }

/-- PoweringDown always ends, as END or as a BEGIN's failure path, after the number of events of 41 R160, with the panel
off, all pins low, the transport off and the handle's registers untouched; `status` keeps a BEGIN's kind and is DCFailed after
an END whose re-check fails (41 R153, R155, R160; 60 R265, R266, R269). -/
def Obligations.PoweringDownAlwaysEnds : Prop :=
  ∀ (s : State) p v, s.HandleOk → s.ctl = .pdFlush 0 → s.line = none → s.profile = some p → s.oracle.askCog = v →
    ∃ t n,
      (n = (if p.sizeClass = .s270 then 3 else 15) + 2 + (if v &&& s.cfg.dcdcMask = 0 then 0 else 9) + 44) ∧
      Runs n s t ∧ t.trace.length = s.trace.length + n ∧
      t.ctl = .idle ∧ t.line = none ∧ t.pwr = .off ∧ t.fromFailed = false ∧ t.xportEn = some false ∧
      t.pinOut = { panelOn := some false, border := some false, discharge := some false, reset := some false } ∧
      t.profile = s.profile ∧ t.comp = s.comp ∧ t.band = s.band ∧ t.compValid = s.compValid ∧
      t.handleValid = s.handleValid ∧ t.timerValid = s.timerValid ∧
      t.status = (if v &&& s.cfg.dcdcMask = 0 ∧ s.fromFailed = false then some .dcFailed else s.status)

/-! ## Frame driver -/

/-- CLEAR and PAINT (42 R170, R171, R174): stage 1 stands at its first pass, window start `step - block`, offset 0; PAINT's
image is the one presented; and the whole first step goes on to the first event, the enable of the first line (00 R11;
assumption 8). A held profile that breaks the constraint of 42 R178 is rejected; the name of that refusal and its place before
the length of the image are the model's (assumption 14). -/
def Obligations.FrameCommandsIssued : Prop :=
  (∀ (s : State) p c, s.Quiet → s.handleValid = true → s.profile = some p → s.compValid = true → s.comp = some c →
    c.ok = true →
    exec .clear s = .next
      { s with ctl := .scan .clear .one 0 ((c.stage1Step : Int) - c.stage1Block) 0, result := none } ∧
    (∀ img, img.length = p.bytesPerLine * p.linesPerDisplay →
      ∃ m, (∀ a (h : a < img.length), Memory.read m a = some img[a]) ∧ (∀ a, img.length ≤ a → Memory.read m a = none) ∧
        exec (.paint img) s = .next
          { s with ctl := .scan .paint .one 0 ((c.stage1Step : Int) - c.stage1Block) 0, img := m, result := none }) ∧
    (∀ w rest i, s.hostQ = w :: rest → decode (.host w) = .ok i → payloadLength p ≤ s.lbSize →
      (i = .clear ∨ ∃ img, i = .paint img ∧ img.length = p.bytesPerLine * p.linesPerDisplay) →
      ∃ t, step s = .next t ∧ t.trace = s.trace ++ [.xportEnable] ∧ t.line = some .send ∧ t.hostQ = rest ∧
        t.pwr = s.pwr ∧ t.status = s.status ∧ t.pinOut = s.pinOut)) ∧
  (∀ (s : State) c, s.Quiet → s.handleValid = true → s.compValid = true → s.comp = some c →
    (c.stage1Repeat = 0 ∨ c.stage1Step = 0 ∨ c.stage1Block < c.stage1Step ∨
      c.stage3Repeat = 0 ∨ c.stage3Step = 0 ∨ c.stage3Block < c.stage3Step) →
    exec .clear s = .refused .badCompensation ∧ ∀ img, exec (.paint img) s = .refused .badCompensation)

/-- The three kinds of line of a block-scan stage, tested in this order: sentinel, terminator on the first offset of the last
pass, nominal (42 R176); the number of passes is the stage's own `repeat` (42 R172). -/
def Obligations.ScanLineKinds : Prop :=
  ∀ (s : State) p c op stage n (w : Int) (offset passes : Nat), s.ctl = .scan op stage n w offset → s.line = none →
    s.profile = some p → s.comp = some c →
    (stage = .one ∧ passes = c.stage1Repeat) ∨ (stage = .three ∧ passes = c.stage3Repeat) →
    (w + offset < 0 ∨ (p.linesPerDisplay : Int) < w + offset →
      fetch s = .run (.lineData .noRow none 0x00 .normal 0x00) s) ∧
    (∀ r : Nat, w + offset = r → r ≤ p.linesPerDisplay →
      (offset = 0 ∧ n + 1 = passes → fetch s = .run (.lineData (.row r) none 0x00 .normal 0x00) s) ∧
      (¬ (offset = 0 ∧ n + 1 = passes) →
        (op = .clear ∧ stage = .one → fetch s = .run (.lineData (.row r) none 0xff .inverse 0x00) s) ∧
        (op = .clear ∧ stage = .three → fetch s = .run (.lineData (.row r) none 0xaa .normal 0x00) s) ∧
        (op = .paint → fetch s = fetchImageLine p stage r s)))

/-- The image rows of PAINT's nominal lines (42 R173, R177; 20 R62), Inverse in stage 1 and Normal in stage 3: row `r` is the
bytes from `r*bytes_per_line`, read from the image; the row at index L is `bytes_per_line` bytes of the oracle's, drawn at that
line, and the image is not read. -/
def Obligations.ImageRowOfNominalLine : Prop :=
  ∀ (s : State) p stage pol r, (stage = .one ∧ pol = .inverse) ∨ (stage = .three ∧ pol = .normal) →
    (∀ d, r < p.linesPerDisplay → d.length = p.bytesPerLine →
      (∀ b (h : b < d.length), Memory.read s.img (r * p.bytesPerLine + b) = some d[b]) →
      fetchImageLine p stage r s = .run (.lineData (.row r) (some d) 0x00 pol 0x00) s) ∧
    (r = p.linesPerDisplay →
      ∃ d o, d.length = p.bytesPerLine ∧
        fetchImageLine p stage r s = .run (.lineData (.row r) (some d) 0x00 pol 0x00) { s with oracle := o } ∧
        (∀ d' rest, s.oracle.rowL = d' ++ rest → d'.length = p.bytesPerLine → d = d' ∧ o.rowL = rest))

/-- After the last event of a line of a block-scan stage (42 R174, with the fields of 42 R172): the next offset below `block`;
else the next window, `step` further, while it starts at most at L; else the next pass below `repeat`, at its first window
`step - block`; else the stage is over: after stage 1 comes stage 2, or stage 3 where `stage2_repeat` is 0, and after stage 3
the command is over (42 R170, R179). `scanNext`, of which `ScanLineCount` and `ScanVisitsEveryRow` speak, is that same move. -/
def Obligations.ScanLineLeadsToNext : Prop :=
  ∀ (s : State) p c op stage n (w : Int) (offset passes dist block : Nat), s.ctl = .scan op stage n w offset →
    s.line = some .disable → s.profile = some p → s.comp = some c →
    (stage = .one ∧ passes = c.stage1Repeat ∧ dist = c.stage1Step ∧ block = c.stage1Block) ∨
      (stage = .three ∧ passes = c.stage3Repeat ∧ dist = c.stage3Step ∧ block = c.stage3Block) →
    ∃ t, step s = .next t ∧ t.trace = s.trace ++ [.xportDisable] ∧ t.xportEn = some false ∧ t.line = none ∧
      t.lb = s.lb ∧ t.img = s.img ∧ t.profile = s.profile ∧ t.comp = s.comp ∧ t.pwr = s.pwr ∧ t.status = s.status ∧
      t.pinOut = s.pinOut ∧ t.oracle = s.oracle ∧
      (offset + 1 < block → t.ctl = .scan op stage n w (offset + 1)) ∧
      (block ≤ offset + 1 → w + dist ≤ p.linesPerDisplay → t.ctl = .scan op stage n (w + dist) 0) ∧
      (block ≤ offset + 1 → (p.linesPerDisplay : Int) < w + dist → n + 1 < passes →
        t.ctl = .scan op stage (n + 1) ((dist : Int) - block) 0) ∧
      (block ≤ offset + 1 → (p.linesPerDisplay : Int) < w + dist → passes ≤ n + 1 →
        (stage = .one → 1 ≤ c.stage2Repeat → t.ctl = .passArm op 1 .first) ∧
        (stage = .one → c.stage2Repeat = 0 → t.ctl = .scan op .three 0 ((c.stage3Step : Int) - c.stage3Block) 0) ∧
        (stage = .three → t.ctl = .idle)) ∧
      (∀ q, scanNext p.linesPerDisplay ⟨passes, dist, block⟩ ⟨n, w, offset⟩ = some q →
        t.ctl = .scan op stage q.n q.w q.offset) ∧
      (scanNext p.linesPerDisplay ⟨passes, dist, block⟩ ⟨n, w, offset⟩ = none →
        ∀ q : ScanPos, t.ctl ≠ .scan op stage q.n q.w q.offset)

/-- A block-scan stage emits exactly `repeat * W * block` lines, `W = floor((L + block - step) / step) + 1` (42 R175). -/
def Obligations.ScanLineCount : Prop :=
  ∀ (lines : Nat) (sh : ScanShape), sh.Ok →
    (scanWalk lines sh (scanLineCount lines sh) (scanStart sh)).length = scanLineCount lines sh ∧
    ∀ more, scanWalk lines sh (scanLineCount lines sh + more) (scanStart sh) =
      scanWalk lines sh (scanLineCount lines sh) (scanStart sh)

/-- A block-scan stage visits every row of the panel (42 R178). -/
def Obligations.ScanVisitsEveryRow : Prop :=
  ∀ (lines : Nat) (sh : ScanShape), sh.Ok → ∀ r < lines,
    ∃ q ∈ scanWalk lines sh (scanLineCount lines sh) (scanStart sh), q.w + q.offset = r

/-- A whole block-scan stage, of CLEAR or of PAINT, from its first place: it always ends, after exactly
`repeat * W * block` lines of four events each (42 R172, R174, R175, R182; 43 R190), with the transport off and `pwr` and `status`
as before; stage 1 ends at stage 2, or at stage 3 where `stage2_repeat` is 0, and stage 3 ends the command. -/
def Obligations.ScanStageRuns : Prop :=
  ∀ (s : State) p c op stage sh, s.Inv → s.line = none → s.profile = some p → s.comp = some c →
    (stage = .one ∧ sh = ⟨c.stage1Repeat, c.stage1Step, c.stage1Block⟩) ∨
      (stage = .three ∧ sh = ⟨c.stage3Repeat, c.stage3Step, c.stage3Block⟩) →
    s.ctl = .scan op stage 0 ((sh.step : Int) - sh.block) 0 →
    ∃ t, Runs (4 * scanLineCount p.linesPerDisplay sh) s t ∧
      t.trace.length = s.trace.length + 4 * scanLineCount p.linesPerDisplay sh ∧
      t.line = none ∧ t.xportEn = some false ∧ t.pwr = s.pwr ∧ t.status = s.status ∧
      (stage = .one → 1 ≤ c.stage2Repeat → t.ctl = .passArm op 1 .first) ∧
      (stage = .one → c.stage2Repeat = 0 → t.ctl = .scan op .three 0 ((c.stage3Step : Int) - c.stage3Block) 0) ∧
      (stage = .three → t.ctl = .idle)

/-- A timed pass (42 R180, R179): it arms the timer with its time, sweeps the rows 0 to L-1 at its fixed value, and queries the
timer after the whole sweep; an answer that is not 0 starts another sweep, 0 ends the pass. -/
def Obligations.TimedPassSteps : Prop :=
  ∀ (s : State) p c op i half, s.line = none → s.profile = some p → s.comp = some c →
    (s.ctl = .passArm op i half →
      step s = .next
        { s with
          trace := s.trace ++ [.timerArm (if half = .first then c.stage2T1 else c.stage2T2)]
          ctl := .passRow op i half 0 }) ∧
    (∀ row, s.ctl = .passRow op i half row →
      fetch s = .run (.lineData (.row row) none (if half = .first then 0xff else 0xaa) .normal 0x00) s) ∧
    (∀ row (s' : State), s' = { s with ctl := .passRow op i half row, line := some .disable } →
      ∃ t, step s' = .next t ∧ t.line = none ∧
        (row + 1 < p.linesPerDisplay → t.ctl = .passRow op i half (row + 1)) ∧
        (p.linesPerDisplay ≤ row + 1 → t.ctl = .passQuery op i half)) ∧
    (s.ctl = .passQuery op i half →
      ∃ t, step s = .next t ∧ t.trace = s.trace ++ [.timerQuery s.oracle.askTimer] ∧ t.line = none ∧
        (s.oracle.askTimer ≠ 0 → t.ctl = .passRow op i half 0) ∧
        (s.oracle.askTimer = 0 → half = .first → t.ctl = .passArm op i .second) ∧
        (s.oracle.askTimer = 0 → half = .second → i < c.stage2Repeat → t.ctl = .passArm op (i + 1) .first) ∧
        (s.oracle.askTimer = 0 → half = .second → c.stage2Repeat ≤ i →
          t.ctl = .scan op .three 0 ((c.stage3Step : Int) - c.stage3Block) 0))

/-! ## Line encoder -/

/-- LINE_DATA (43 R190, R200, R201): it answers a next state for every row, data that fits, polarity and border; it enables the
transport, writes the whole payload into `LB` and no other byte, and leaves every other register and the image. That these two
are one step is the model's choice (assumption 11), and so is the name of the refusal of a row of the wrong length (assumption
21). -/
def Obligations.LineDataFillsBuffer : Prop :=
  ∀ (s : State) p row data fixed pol border, s.profile = some p → payloadLength p ≤ s.lbSize →
    ((∃ d, data = some d ∧ d.length ≠ p.bytesPerLine) →
      exec (.lineData row data fixed pol border) s = .refused .badRowLength) ∧
    ((∀ d, data = some d → d.length = p.bytesPerLine) →
      ∃ lb, Memory.readList lb 0 (2 * p.bytesPerLine + p.bytesPerScan + 2) =
          some (lineBytes s.cfg p row data fixed pol border) ∧
        (∀ a, 2 * p.bytesPerLine + p.bytesPerScan + 2 ≤ a → Memory.read lb a = Memory.read s.lb a) ∧
        exec (.lineData row data fixed pol border) s = .next
          { s with trace := s.trace ++ [.xportEnable], xportEn := some true, lb := lb, line := some .send })

/-- A line is four events (43 R190, R199, R200): the enable, the payload as one send, OE_TO_PANEL, the disable; no event comes
between. -/
def Obligations.LineIsFourEvents : Prop :=
  ∀ (s t1 : State) p row data fixed pol border, s.profile = some p →
    exec (.lineData row data fixed pol border) s = .next t1 →
    ∃ t2 t3, step t1 = .next t2 ∧ step t2 = .next t3 ∧
      t3.trace = s.trace ++
        [.xportEnable, .xportSend (lineBytes s.cfg p row data fixed pol border), .cogWrite .oeToPanel []] ∧
      t3.ctl = s.ctl ∧ t3.xportEn = some true ∧ fetch t3 = .run .xportDisable t3 ∧
      ∀ t4, step t3 = .next t4 → t4.trace = t3.trace ++ [.xportDisable] ∧ t4.xportEn = some false ∧ t4.line = none

/-- The payload, byte by byte (43 R191, R193, R197): its length; the odd section from the last source byte to the first; the even
section from the first to the last; the fixed value where there is no source row, whatever the polarity. -/
def Obligations.PayloadLayout : Prop :=
  ∀ (cfg : Cfg) (p : PanelProfile) row data fixed pol border, (∀ d, data = some d → d.length = p.bytesPerLine) →
    (lineBytes cfg p row data fixed pol border).length = 2 * p.bytesPerLine + p.bytesPerScan + 2 ∧
    (lineBytes cfg p row data fixed pol border)[0]? = some cfg.cmdLine ∧
    (lineBytes cfg p row data fixed pol border)[1]? = some border ∧
    (∀ k < p.bytesPerLine,
      (∀ d, data = some d →
        (lineBytes cfg p row data fixed pol border)[2 + k]? = (d[p.bytesPerLine - 1 - k]?).map (oddCode · pol) ∧
        (lineBytes cfg p row data fixed pol border)[2 + p.bytesPerLine + p.bytesPerScan + k]? =
          (d[k]?).map (evenCode · pol)) ∧
      (data = none →
        (lineBytes cfg p row data fixed pol border)[2 + k]? = some fixed ∧
        (lineBytes cfg p row data fixed pol border)[2 + p.bytesPerLine + p.bytesPerScan + k]? = some fixed)) ∧
    (∀ k < p.bytesPerScan, (lineBytes cfg p row data fixed pol border)[2 + p.bytesPerLine + k]? =
      some (scanByte cfg.scanNegDiv p.linesPerDisplay row k))

/-- `OddCode` and `EvenCode` (43 R194, R198): the two formulas of `OddCode`; bits 1, 3, 5, 7 of either are 1; bit `2j` is source
bit `2j` of an odd code and source bit `7-2j` of an even code, complemented under Inverse. -/
def Obligations.PixelCodeBits : Prop :=
  ∀ x : Byte,
    oddCode x .normal = (x &&& 0x55) ||| 0xaa ∧ oddCode x .inverse = ((x &&& 0x55) ^^^ 0x55) ||| 0xaa ∧
    ∀ j : Fin 4,
      (oddCode x .normal).getLsbD (2 * j + 1) = true ∧ (oddCode x .inverse).getLsbD (2 * j + 1) = true ∧
      (oddCode x .normal).getLsbD (2 * j) = x.getLsbD (2 * j) ∧
      (oddCode x .inverse).getLsbD (2 * j) = !x.getLsbD (2 * j) ∧
      (evenCode x .normal).getLsbD (2 * j + 1) = true ∧ (evenCode x .inverse).getLsbD (2 * j + 1) = true ∧
      (evenCode x .normal).getLsbD (2 * j) = x.getLsbD (7 - 2 * j) ∧
      (evenCode x .inverse).getLsbD (2 * j) = !x.getLsbD (7 - 2 * j)

/-- The scan section of a row of the panel (43 R195): the byte at `(L - row - 1)/4` is `0x03 << (2*(row mod 4))`, one of four
values and not zero, every other byte is `0x00`; both readings of SCAN_NEG_DIV agree. -/
def Obligations.ScanSelectsOneRow : Prop :=
  ∀ (nd : NegDiv) (bps row : Nat), row < 4 * bps →
    (4 * bps - row - 1) / 4 < bps ∧
    (∀ k < bps, scanByte nd (4 * bps) (.row row) k =
      if k = (4 * bps - row - 1) / 4 then (0x03 : Byte) <<< (2 * (row % 4)) else 0x00) ∧
    ((0x03 : Byte) <<< (2 * (row % 4)) = 0x03 ∨ (0x03 : Byte) <<< (2 * (row % 4)) = 0x0c ∨
      (0x03 : Byte) <<< (2 * (row % 4)) = 0x30 ∨ (0x03 : Byte) <<< (2 * (row % 4)) = 0xc0)

/-- The scan section outside the panel's rows (43 R196): none for `NoRow`; for `row = L` none under `floor`, and under `trunc`
the scan section of row `L-4`. -/
def Obligations.ScanOutsideThePanel : Prop :=
  (∀ (nd : NegDiv) (lines k : Nat), scanByte nd lines .noRow k = 0x00) ∧
  (∀ bps k : Nat, scanByte .floor (4 * bps) (.row (4 * bps)) k = 0x00) ∧
  (∀ bps k : Nat, 1 ≤ bps →
    scanByte .trunc (4 * bps) (.row (4 * bps)) k = (if k = 0 then 0x03 else 0x00) ∧
    scanByte .trunc (4 * bps) (.row (4 * bps)) k = scanByte .trunc (4 * bps) (.row (4 * bps - 4)) k)

/-- All-zero and all-one rows (43 R202). -/
def Obligations.UniformRows : Prop :=
  ∀ (n : Nat) (fixed : Byte),
    oddSection n (some (List.replicate n 0x00)) fixed .normal = List.replicate n 0xaa ∧
    evenSection n (some (List.replicate n 0x00)) fixed .normal = List.replicate n 0xaa ∧
    oddSection n (some (List.replicate n 0x00)) fixed .inverse = List.replicate n 0xff ∧
    evenSection n (some (List.replicate n 0x00)) fixed .inverse = List.replicate n 0xff ∧
    oddSection n (some (List.replicate n 0xff)) fixed .normal = List.replicate n 0xff ∧
    evenSection n (some (List.replicate n 0xff)) fixed .normal = List.replicate n 0xff ∧
    oddSection n (some (List.replicate n 0xff)) fixed .inverse = List.replicate n 0xaa ∧
    evenSection n (some (List.replicate n 0xff)) fixed .inverse = List.replicate n 0xaa

/-! ## COG commands and events -/

/-- The 17 COG writes (44 R224, R227, R229 to R236, R238 to R245): one event with the command's name, data only on
CHANNEL_SELECT, nothing else changed. -/
def Obligations.CogWriteCommands : Prop :=
  ∀ s : State,
    (∀ ic ∈ [(Instr.oeDisable, CogWriteCmd.oeDisable), (.powerSaving, .powerSaving), (.oscillatorOn, .oscillatorOn),
        (.powerSetting, .powerSetting), (.vcomLevel, .vcomLevel), (.pumpPositive, .pumpPositive),
        (.pumpNegative, .pumpNegative), (.pumpVcom, .pumpVcom), (.latchResetOn, .latchResetOn),
        (.powerOffPositive, .powerOffPositive), (.powerOffVcom, .powerOffVcom), (.powerOffAllPumps, .powerOffAllPumps),
        (.oscillatorOff, .oscillatorOff), (.dischargeOn, .dischargeOn), (.dischargeOff, .dischargeOff),
        (.oeToPanel, .oeToPanel)],
      exec ic.1 s = .next { s with trace := s.trace ++ [.cogWrite ic.2 []] }) ∧
    (∀ mask, exec (.channelSelect mask) s = .next { s with trace := s.trace ++ [.cogWrite .channelSelect mask] })

/-- The three COG reads (44 R225, R226, R228, R237): for every oracle, an empty one too, one event with an answer; the answer is
the next listed one, any byte, and goes to the sampled value the calling rule names; nothing else changes. That READ_ID answers
into `id2` at a control state other than VF.id, where no rule calls it, is the model's choice (assumption 23). -/
def Obligations.CogReadCommands : Prop :=
  (∀ (s : State) ic, ic ∈ [(Instr.readId, CogReadCmd.readId), (.readBreakage, .readBreakage), (.readDcdc, .readDcdc)] →
    ∃ v t, exec ic.1 s = .next t ∧ t.trace = s.trace ++ [.cogRead ic.2 v] ∧
      { t with trace := s.trace, oracle := s.oracle, sampled := s.sampled } = s) ∧
  ∀ (s : State) v rest, s.oracle.cog = v :: rest →
    (s.ctl = .vfId false →
      exec .readId s = .next
        { s with
          trace := s.trace ++ [.cogRead .readId v]
          oracle := { s.oracle with cog := rest, draws := s.oracle.draws + 1 }
          sampled := { s.sampled with id1 := some v } }) ∧
    (s.ctl ≠ .vfId false →
      exec .readId s = .next
        { s with
          trace := s.trace ++ [.cogRead .readId v]
          oracle := { s.oracle with cog := rest, draws := s.oracle.draws + 1 }
          sampled := { s.sampled with id2 := some v } }) ∧
    exec .readBreakage s = .next
      { s with
        trace := s.trace ++ [.cogRead .readBreakage v]
        oracle := { s.oracle with cog := rest, draws := s.oracle.draws + 1 }
        sampled := { s.sampled with brk := some v } } ∧
    exec .readDcdc s = .next
      { s with
        trace := s.trace ++ [.cogRead .readDcdc v]
        oracle := { s.oracle with cog := rest, draws := s.oracle.draws + 1 }
        sampled := { s.sampled with dc := some v } }

/-- The GPIO events (44 R210, R211, R212). That a read of another pin than `busy` leaves every sampled value alone is the model's
choice (assumption 13). -/
def Obligations.GpioEvents : Prop :=
  ∀ s : State,
    (∀ p m, exec (.gpioConfigure p m) s = .next { s with trace := s.trace ++ [.gpioConfigure p m] }) ∧
    (∀ p b, ∃ l : PinLatches,
      exec (.gpioWrite p b) s = .next { s with trace := s.trace ++ [.gpioWrite p b], pinOut := l } ∧
      l.get p = some b ∧ ∀ q, q ≠ p → l.get q = s.pinOut.get q) ∧
    (∀ b rest, s.oracle.busy = b :: rest →
      exec (.gpioRead .busy) s = .next
        { s with
          trace := s.trace ++ [.gpioRead .busy b]
          oracle := { s.oracle with busy := rest, draws := s.oracle.draws + 1 }
          sampled := { s.sampled with busyS := some b } }) ∧
    (∃ b o, exec (.gpioRead .busy) s = .next
      { s with
        trace := s.trace ++ [.gpioRead .busy b], oracle := o, sampled := { s.sampled with busyS := some b } }) ∧
    (∀ p, p ≠ .busy → ∃ b o, exec (.gpioRead p) s = .next
      { s with trace := s.trace ++ [.gpioRead p b], oracle := o })

/-- The transport events (44 R213, R214, R215, R216). -/
def Obligations.TransportEvents : Prop :=
  ∀ s : State,
    exec .xportEnable s = .next { s with trace := s.trace ++ [.xportEnable], xportEn := some true } ∧
    exec .xportDisable s = .next { s with trace := s.trace ++ [.xportDisable], xportEn := some false } ∧
    (∀ bytes, exec (.xportSend bytes) s = .next { s with trace := s.trace ++ [.xportSend bytes] }) ∧
    (∀ cmd n, ∃ r o, r.length = n ∧ (∀ r' rest, s.oracle.xport = r' ++ rest → r'.length = n → r = r' ∧ o.xport = rest) ∧
      exec (.xportRead cmd n) s = .next { s with trace := s.trace ++ [.xportRead cmd n r], oracle := o })

/-- The delays and the timer (44 R217 to R221). -/
def Obligations.DelayAndTimerEvents : Prop :=
  ∀ s : State,
    (∀ n, exec (.delayMs n) s = .next { s with trace := s.trace ++ [.delayMs n] }) ∧
    (∀ n, exec (.delayUs n) s = .next { s with trace := s.trace ++ [.delayUs n] }) ∧
    (∀ n, exec (.timerArm n) s = .next { s with trace := s.trace ++ [.timerArm n] }) ∧
    (∃ ok, (∀ b rest, s.oracle.timerCreate = b :: rest → ok = b) ∧
      exec .timerCreate s = .next
        { s with trace := s.trace ++ [.timerCreate ok], oracle := s.oracle.afterTimerCreate }) ∧
    (∃ rem, (∀ n rest, s.oracle.timer = n :: rest → rem = n) ∧
      exec .timerQuery s = .next
        { s with
          trace := s.trace ++ [.timerQuery rem]
          oracle := s.oracle.afterTimer
          sampled := { s.sampled with rem := some rem } })

/-! ## Frames and whole-machine rules -/

/-- No event or COG command writes an element of the state besides `trace`, the sampled values and the answers drawn, but for
the three of 44 R223. -/
def Obligations.EventFrame : Prop :=
  ∀ (i : Instr) (s t : State), isHostCommand i = false → (∀ row data fixed pol border, i ≠ .lineData row data fixed pol border) →
    exec i s = .next t →
    { t with trace := s.trace, sampled := s.sampled, oracle := s.oracle, pinOut := s.pinOut, xportEn := s.xportEn } = s ∧
    ((∀ p b, i ≠ .gpioWrite p b) → t.pinOut = s.pinOut) ∧
    (∀ p b, i = .gpioWrite p b → t.pinOut = s.pinOut.set p b) ∧
    (i ≠ .xportEnable → i ≠ .xportDisable → t.xportEn = s.xportEn) ∧
    (i = .xportEnable → t.xportEn = some true) ∧ (i = .xportDisable → t.xportEn = some false)

/-- Every byte of both spaces is as before, but for the payload bytes of LINE_DATA, the buffer that OPEN makes and CLOSE drops,
and the image that PAINT presents (20 R60, R69; 43 R201). -/
def Obligations.MemoryFrame : Prop :=
  ∀ (i : Instr) (s t : State), exec i s = .next t →
    ((∀ sel, i ≠ .openPanel sel) → i ≠ .close → (∀ row data fixed pol border, i ≠ .lineData row data fixed pol border) →
      ∀ a, Memory.read t.lb a = Memory.read s.lb a) ∧
    (∀ row data fixed pol border p, i = .lineData row data fixed pol border → s.profile = some p →
      ∀ a, payloadLength p ≤ a → Memory.read t.lb a = Memory.read s.lb a) ∧
    ((∀ img, i ≠ .paint img) → ∀ a, Memory.read t.img a = Memory.read s.img a)

/-- A step changes the image only where it issues a PAINT, and never the configuration (20 R62, R63). -/
def Obligations.ImageAndConfigUntouched : Prop :=
  ∀ s t : State, step s = .next t →
    t.cfg = s.cfg ∧
    (t.img ≠ s.img → s.Quiet ∧ ∃ w rest img, s.hostQ = w :: rest ∧ decode (.host w) = .ok (.paint img))

/-- Who writes the profile, the compensation profile and the handle's registers (10 R21, R22, R23, R29): OPEN and CLOSE, and
SET_TEMPERATURE for `band`, `comp`, `comp_valid`. -/
def Obligations.ProfileAndCompWriters : Prop :=
  ∀ s t : State, step s = .next t →
    (t.profile ≠ s.profile ∨ t.handleValid ≠ s.handleValid ∨ t.timerValid ≠ s.timerValid ∨ t.lbSize ≠ s.lbSize →
      s.Quiet ∧ ∃ w rest, s.hostQ = w :: rest ∧
        ((∃ sel, decode (.host w) = .ok (.openPanel sel)) ∨ decode (.host w) = .ok .close)) ∧
    (t.comp ≠ s.comp ∨ t.band ≠ s.band ∨ t.compValid ≠ s.compValid →
      s.Quiet ∧ ∃ w rest, s.hostQ = w :: rest ∧
        ((∃ sel, decode (.host w) = .ok (.openPanel sel)) ∨ decode (.host w) = .ok .close ∨
          ∃ c, decode (.host w) = .ok (.setTemperature c)))

/-- Every write of `status` (41 R157): BEGIN's and END's issue, a failed check of BEGIN, BEGIN's end, a failed re-check of END;
besides, OPEN and CLOSE leave it without a value (40 R122, R123). -/
def Obligations.StatusWriters : Prop :=
  ∀ s t : State, step s = .next t → t.status ≠ s.status →
    (s.Quiet ∧ ∃ w rest, s.hostQ = w :: rest ∧
      ((decode (.host w) = .ok .begin ∧ t.status = some .ok) ∨ (decode (.host w) = .ok .endPower ∧ t.status = some .ok) ∨
        (∃ sel, decode (.host w) = .ok (.openPanel sel) ∧ t.status = none) ∨
        (decode (.host w) = .ok .close ∧ t.status = none))) ∨
    (∃ kind, t.status = some (statusOf kind) ∧ t.pwr = .failed kind ∧ t.fromFailed = true ∧ t.ctl = .pdFlush 0 ∧
      ((kind = .unsupportedCOG ∧ s.ctl = .vfId true) ∨ (kind = .panelBroken ∧ ∃ k, s.ctl = .vfBreakage k) ∨
        (kind = .dcFailed ∧ ∃ a k, s.ctl = .vfPump a k ∧ 4 ≤ a))) ∨
    ((∃ k, s.ctl = .rdFinish k) ∧ t.status = some .ok ∧ t.ctl = .idle) ∨
    ((∃ k, s.ctl = .pdCheck k) ∧ s.fromFailed = false ∧ t.status = some .dcFailed ∧ t.ctl = .pdFinal 0)

/-- `pwr` and `status` gate nothing (41 R158, 10 R24, R25): with any other value of the two, every step but the issue of STATUS
does the same to everything else. -/
def Obligations.PowerAndStatusGateNothing : Prop :=
  ∀ (s t : State) (w : Pwr) (v : Option Status), step s = .next t → (∀ s1, fetch s ≠ .run .status s1) →
    ∃ t', step { s with pwr := w, status := v } = .next t' ∧
      { t' with pwr := .off, status := none } = { t with pwr := .off, status := none }

/-- CHANNEL_SELECT is emitted at one place only, with the mask of the profile (41 R147, R159). -/
def Obligations.ChannelSelectOnlyInSetUp : Prop :=
  ∀ (s s1 : State) mask, fetch s = .run (.channelSelect mask) s1 →
    s.ctl = .vfInit 1 ∧ ∃ p, s.profile = some p ∧ mask = p.channelSelect

/-- On the wire, by whatever COGFRAME the platform has, the nine bytes of a CHANNEL_SELECT stand verbatim, in order and contiguous
in what is sent (30 R103), and every COG write sends at least once. -/
def Obligations.ChannelSelectVerbatimOnTheWire : Prop :=
  ∀ (f : CogFrame) (s t : State) mask, mask.length = 9 → exec (.channelSelect mask) s = .next t →
    ∃ sent : List (List Byte), sent ≠ [] ∧ mask <:+: sent.flatten ∧
      wireTrace f t.trace = wireTrace f s.trace ++ sent.map .send
end

