-- ==== Sys2Proof/Laws/State.lean ====
section
/-! SUPPORT. One lemma per field per update of the state, so that no proof unfolds a record update. -/

namespace Sys2Proof.Machine

variable (s : State)

/-! ## emit -/

@[simp] theorem State.emit_handleValid (e : Event) : (s.emit e).handleValid = s.handleValid := rfl
@[simp] theorem State.emit_profile (e : Event) : (s.emit e).profile = s.profile := rfl
@[simp] theorem State.emit_band (e : Event) : (s.emit e).band = s.band := rfl
@[simp] theorem State.emit_comp (e : Event) : (s.emit e).comp = s.comp := rfl
@[simp] theorem State.emit_compValid (e : Event) : (s.emit e).compValid = s.compValid := rfl
@[simp] theorem State.emit_status (e : Event) : (s.emit e).status = s.status := rfl
@[simp] theorem State.emit_pwr (e : Event) : (s.emit e).pwr = s.pwr := rfl
@[simp] theorem State.emit_fromFailed (e : Event) : (s.emit e).fromFailed = s.fromFailed := rfl
@[simp] theorem State.emit_pinOut (e : Event) : (s.emit e).pinOut = s.pinOut := rfl
@[simp] theorem State.emit_xportEn (e : Event) : (s.emit e).xportEn = s.xportEn := rfl
@[simp] theorem State.emit_timerValid (e : Event) : (s.emit e).timerValid = s.timerValid := rfl
@[simp] theorem State.emit_lbSize (e : Event) : (s.emit e).lbSize = s.lbSize := rfl
@[simp] theorem State.emit_lb (e : Event) : (s.emit e).lb = s.lb := rfl
@[simp] theorem State.emit_ctl (e : Event) : (s.emit e).ctl = s.ctl := rfl
@[simp] theorem State.emit_line (e : Event) : (s.emit e).line = s.line := rfl
@[simp] theorem State.emit_sampled (e : Event) : (s.emit e).sampled = s.sampled := rfl
@[simp] theorem State.emit_trace (e : Event) : (s.emit e).trace = s.trace ++ [e] := rfl
@[simp] theorem State.emit_img (e : Event) : (s.emit e).img = s.img := rfl
@[simp] theorem State.emit_cfg (e : Event) : (s.emit e).cfg = s.cfg := rfl
@[simp] theorem State.emit_hostQ (e : Event) : (s.emit e).hostQ = s.hostQ := rfl
@[simp] theorem State.emit_result (e : Event) : (s.emit e).result = s.result := rfl
@[simp] theorem State.emit_oracle (e : Event) : (s.emit e).oracle = s.oracle := rfl

/-! ## cogWrite -/

@[simp] theorem State.cogWrite_handleValid (c : CogWriteCmd) (d : List Byte) : (s.cogWrite c d).handleValid = s.handleValid := rfl
@[simp] theorem State.cogWrite_profile (c : CogWriteCmd) (d : List Byte) : (s.cogWrite c d).profile = s.profile := rfl
@[simp] theorem State.cogWrite_band (c : CogWriteCmd) (d : List Byte) : (s.cogWrite c d).band = s.band := rfl
@[simp] theorem State.cogWrite_comp (c : CogWriteCmd) (d : List Byte) : (s.cogWrite c d).comp = s.comp := rfl
@[simp] theorem State.cogWrite_compValid (c : CogWriteCmd) (d : List Byte) : (s.cogWrite c d).compValid = s.compValid := rfl
@[simp] theorem State.cogWrite_status (c : CogWriteCmd) (d : List Byte) : (s.cogWrite c d).status = s.status := rfl
@[simp] theorem State.cogWrite_pwr (c : CogWriteCmd) (d : List Byte) : (s.cogWrite c d).pwr = s.pwr := rfl
@[simp] theorem State.cogWrite_fromFailed (c : CogWriteCmd) (d : List Byte) : (s.cogWrite c d).fromFailed = s.fromFailed := rfl
@[simp] theorem State.cogWrite_pinOut (c : CogWriteCmd) (d : List Byte) : (s.cogWrite c d).pinOut = s.pinOut := rfl
@[simp] theorem State.cogWrite_xportEn (c : CogWriteCmd) (d : List Byte) : (s.cogWrite c d).xportEn = s.xportEn := rfl
@[simp] theorem State.cogWrite_timerValid (c : CogWriteCmd) (d : List Byte) : (s.cogWrite c d).timerValid = s.timerValid := rfl
@[simp] theorem State.cogWrite_lbSize (c : CogWriteCmd) (d : List Byte) : (s.cogWrite c d).lbSize = s.lbSize := rfl
@[simp] theorem State.cogWrite_lb (c : CogWriteCmd) (d : List Byte) : (s.cogWrite c d).lb = s.lb := rfl
@[simp] theorem State.cogWrite_ctl (c : CogWriteCmd) (d : List Byte) : (s.cogWrite c d).ctl = s.ctl := rfl
@[simp] theorem State.cogWrite_line (c : CogWriteCmd) (d : List Byte) : (s.cogWrite c d).line = s.line := rfl
@[simp] theorem State.cogWrite_sampled (c : CogWriteCmd) (d : List Byte) : (s.cogWrite c d).sampled = s.sampled := rfl
@[simp] theorem State.cogWrite_trace (c : CogWriteCmd) (d : List Byte) : (s.cogWrite c d).trace = s.trace ++ [.cogWrite c d] := rfl
@[simp] theorem State.cogWrite_img (c : CogWriteCmd) (d : List Byte) : (s.cogWrite c d).img = s.img := rfl
@[simp] theorem State.cogWrite_cfg (c : CogWriteCmd) (d : List Byte) : (s.cogWrite c d).cfg = s.cfg := rfl
@[simp] theorem State.cogWrite_hostQ (c : CogWriteCmd) (d : List Byte) : (s.cogWrite c d).hostQ = s.hostQ := rfl
@[simp] theorem State.cogWrite_result (c : CogWriteCmd) (d : List Byte) : (s.cogWrite c d).result = s.result := rfl
@[simp] theorem State.cogWrite_oracle (c : CogWriteCmd) (d : List Byte) : (s.cogWrite c d).oracle = s.oracle := rfl

/-! ## cogRead -/

@[simp] theorem State.cogRead_handleValid (c : CogReadCmd) : (s.cogRead c).handleValid = s.handleValid := rfl
@[simp] theorem State.cogRead_profile (c : CogReadCmd) : (s.cogRead c).profile = s.profile := rfl
@[simp] theorem State.cogRead_band (c : CogReadCmd) : (s.cogRead c).band = s.band := rfl
@[simp] theorem State.cogRead_comp (c : CogReadCmd) : (s.cogRead c).comp = s.comp := rfl
@[simp] theorem State.cogRead_compValid (c : CogReadCmd) : (s.cogRead c).compValid = s.compValid := rfl
@[simp] theorem State.cogRead_status (c : CogReadCmd) : (s.cogRead c).status = s.status := rfl
@[simp] theorem State.cogRead_pwr (c : CogReadCmd) : (s.cogRead c).pwr = s.pwr := rfl
@[simp] theorem State.cogRead_fromFailed (c : CogReadCmd) : (s.cogRead c).fromFailed = s.fromFailed := rfl
@[simp] theorem State.cogRead_pinOut (c : CogReadCmd) : (s.cogRead c).pinOut = s.pinOut := rfl
@[simp] theorem State.cogRead_xportEn (c : CogReadCmd) : (s.cogRead c).xportEn = s.xportEn := rfl
@[simp] theorem State.cogRead_timerValid (c : CogReadCmd) : (s.cogRead c).timerValid = s.timerValid := rfl
@[simp] theorem State.cogRead_lbSize (c : CogReadCmd) : (s.cogRead c).lbSize = s.lbSize := rfl
@[simp] theorem State.cogRead_lb (c : CogReadCmd) : (s.cogRead c).lb = s.lb := rfl
@[simp] theorem State.cogRead_ctl (c : CogReadCmd) : (s.cogRead c).ctl = s.ctl := rfl
@[simp] theorem State.cogRead_line (c : CogReadCmd) : (s.cogRead c).line = s.line := rfl
@[simp] theorem State.cogRead_sampled (c : CogReadCmd) : (s.cogRead c).sampled = s.sampled := rfl
@[simp] theorem State.cogRead_trace (c : CogReadCmd) : (s.cogRead c).trace = s.trace ++ [.cogRead c s.oracle.askCog] := rfl
@[simp] theorem State.cogRead_img (c : CogReadCmd) : (s.cogRead c).img = s.img := rfl
@[simp] theorem State.cogRead_cfg (c : CogReadCmd) : (s.cogRead c).cfg = s.cfg := rfl
@[simp] theorem State.cogRead_hostQ (c : CogReadCmd) : (s.cogRead c).hostQ = s.hostQ := rfl
@[simp] theorem State.cogRead_result (c : CogReadCmd) : (s.cogRead c).result = s.result := rfl
@[simp] theorem State.cogRead_oracle (c : CogReadCmd) : (s.cogRead c).oracle = s.oracle.afterCog := rfl

/-! ## forget -/

@[simp] theorem State.forget_handleValid : (s.forget).handleValid = s.handleValid := rfl
@[simp] theorem State.forget_profile : (s.forget).profile = s.profile := rfl
@[simp] theorem State.forget_band : (s.forget).band = s.band := rfl
@[simp] theorem State.forget_comp : (s.forget).comp = s.comp := rfl
@[simp] theorem State.forget_compValid : (s.forget).compValid = s.compValid := rfl
@[simp] theorem State.forget_status : (s.forget).status = s.status := rfl
@[simp] theorem State.forget_pwr : (s.forget).pwr = s.pwr := rfl
@[simp] theorem State.forget_fromFailed : (s.forget).fromFailed = s.fromFailed := rfl
@[simp] theorem State.forget_pinOut : (s.forget).pinOut = s.pinOut := rfl
@[simp] theorem State.forget_xportEn : (s.forget).xportEn = s.xportEn := rfl
@[simp] theorem State.forget_timerValid : (s.forget).timerValid = s.timerValid := rfl
@[simp] theorem State.forget_lbSize : (s.forget).lbSize = s.lbSize := rfl
@[simp] theorem State.forget_lb : (s.forget).lb = s.lb := rfl
@[simp] theorem State.forget_ctl : (s.forget).ctl = s.ctl := rfl
@[simp] theorem State.forget_line : (s.forget).line = s.line := rfl
@[simp] theorem State.forget_sampled : (s.forget).sampled = Sampled.none := rfl
@[simp] theorem State.forget_trace : (s.forget).trace = s.trace := rfl
@[simp] theorem State.forget_img : (s.forget).img = s.img := rfl
@[simp] theorem State.forget_cfg : (s.forget).cfg = s.cfg := rfl
@[simp] theorem State.forget_hostQ : (s.forget).hostQ = s.hostQ := rfl
@[simp] theorem State.forget_result : (s.forget).result = s.result := rfl
@[simp] theorem State.forget_oracle : (s.forget).oracle = s.oracle := rfl

/-! ## finish -/

@[simp] theorem State.finish_handleValid : (s.finish).handleValid = s.handleValid := rfl
@[simp] theorem State.finish_profile : (s.finish).profile = s.profile := rfl
@[simp] theorem State.finish_band : (s.finish).band = s.band := rfl
@[simp] theorem State.finish_comp : (s.finish).comp = s.comp := rfl
@[simp] theorem State.finish_compValid : (s.finish).compValid = s.compValid := rfl
@[simp] theorem State.finish_status : (s.finish).status = s.status := rfl
@[simp] theorem State.finish_pwr : (s.finish).pwr = s.pwr := rfl
@[simp] theorem State.finish_fromFailed : (s.finish).fromFailed = s.fromFailed := rfl
@[simp] theorem State.finish_pinOut : (s.finish).pinOut = s.pinOut := rfl
@[simp] theorem State.finish_xportEn : (s.finish).xportEn = s.xportEn := rfl
@[simp] theorem State.finish_timerValid : (s.finish).timerValid = s.timerValid := rfl
@[simp] theorem State.finish_lbSize : (s.finish).lbSize = s.lbSize := rfl
@[simp] theorem State.finish_lb : (s.finish).lb = s.lb := rfl
@[simp] theorem State.finish_ctl : (s.finish).ctl = .idle := rfl
@[simp] theorem State.finish_line : (s.finish).line = s.line := rfl
@[simp] theorem State.finish_sampled : (s.finish).sampled = Sampled.none := rfl
@[simp] theorem State.finish_trace : (s.finish).trace = s.trace := rfl
@[simp] theorem State.finish_img : (s.finish).img = s.img := rfl
@[simp] theorem State.finish_cfg : (s.finish).cfg = s.cfg := rfl
@[simp] theorem State.finish_hostQ : (s.finish).hostQ = s.hostQ := rfl
@[simp] theorem State.finish_result : (s.finish).result = s.result := rfl
@[simp] theorem State.finish_oracle : (s.finish).oracle = s.oracle := rfl

/-! ## enterPoweringDown -/

@[simp] theorem State.enterPoweringDown_handleValid : (s.enterPoweringDown).handleValid = s.handleValid := rfl
@[simp] theorem State.enterPoweringDown_profile : (s.enterPoweringDown).profile = s.profile := rfl
@[simp] theorem State.enterPoweringDown_band : (s.enterPoweringDown).band = s.band := rfl
@[simp] theorem State.enterPoweringDown_comp : (s.enterPoweringDown).comp = s.comp := rfl
@[simp] theorem State.enterPoweringDown_compValid : (s.enterPoweringDown).compValid = s.compValid := rfl
@[simp] theorem State.enterPoweringDown_status : (s.enterPoweringDown).status = s.status := rfl
@[simp] theorem State.enterPoweringDown_pwr : (s.enterPoweringDown).pwr = s.pwr := rfl
@[simp] theorem State.enterPoweringDown_fromFailed : (s.enterPoweringDown).fromFailed = s.fromFailed := rfl
@[simp] theorem State.enterPoweringDown_pinOut : (s.enterPoweringDown).pinOut = s.pinOut := rfl
@[simp] theorem State.enterPoweringDown_xportEn : (s.enterPoweringDown).xportEn = s.xportEn := rfl
@[simp] theorem State.enterPoweringDown_timerValid : (s.enterPoweringDown).timerValid = s.timerValid := rfl
@[simp] theorem State.enterPoweringDown_lbSize : (s.enterPoweringDown).lbSize = s.lbSize := rfl
@[simp] theorem State.enterPoweringDown_lb : (s.enterPoweringDown).lb = s.lb := rfl
@[simp] theorem State.enterPoweringDown_ctl : (s.enterPoweringDown).ctl = .pdFlush 0 := rfl
@[simp] theorem State.enterPoweringDown_line : (s.enterPoweringDown).line = s.line := rfl
@[simp] theorem State.enterPoweringDown_sampled : (s.enterPoweringDown).sampled = s.sampled := rfl
@[simp] theorem State.enterPoweringDown_trace : (s.enterPoweringDown).trace = s.trace := rfl
@[simp] theorem State.enterPoweringDown_img : (s.enterPoweringDown).img = s.img := rfl
@[simp] theorem State.enterPoweringDown_cfg : (s.enterPoweringDown).cfg = s.cfg := rfl
@[simp] theorem State.enterPoweringDown_hostQ : (s.enterPoweringDown).hostQ = s.hostQ := rfl
@[simp] theorem State.enterPoweringDown_result : (s.enterPoweringDown).result = s.result := rfl
@[simp] theorem State.enterPoweringDown_oracle : (s.enterPoweringDown).oracle = s.oracle := rfl

/-! ## raiseFail -/

@[simp] theorem State.raiseFail_handleValid (kind : FailKind) : (s.raiseFail kind).handleValid = s.handleValid := rfl
@[simp] theorem State.raiseFail_profile (kind : FailKind) : (s.raiseFail kind).profile = s.profile := rfl
@[simp] theorem State.raiseFail_band (kind : FailKind) : (s.raiseFail kind).band = s.band := rfl
@[simp] theorem State.raiseFail_comp (kind : FailKind) : (s.raiseFail kind).comp = s.comp := rfl
@[simp] theorem State.raiseFail_compValid (kind : FailKind) : (s.raiseFail kind).compValid = s.compValid := rfl
@[simp] theorem State.raiseFail_status (kind : FailKind) : (s.raiseFail kind).status = some (statusOf kind) := rfl
@[simp] theorem State.raiseFail_pwr (kind : FailKind) : (s.raiseFail kind).pwr = .failed kind := rfl
@[simp] theorem State.raiseFail_fromFailed (kind : FailKind) : (s.raiseFail kind).fromFailed = true := rfl
@[simp] theorem State.raiseFail_pinOut (kind : FailKind) : (s.raiseFail kind).pinOut = s.pinOut := rfl
@[simp] theorem State.raiseFail_xportEn (kind : FailKind) : (s.raiseFail kind).xportEn = s.xportEn := rfl
@[simp] theorem State.raiseFail_timerValid (kind : FailKind) : (s.raiseFail kind).timerValid = s.timerValid := rfl
@[simp] theorem State.raiseFail_lbSize (kind : FailKind) : (s.raiseFail kind).lbSize = s.lbSize := rfl
@[simp] theorem State.raiseFail_lb (kind : FailKind) : (s.raiseFail kind).lb = s.lb := rfl
@[simp] theorem State.raiseFail_ctl (kind : FailKind) : (s.raiseFail kind).ctl = .pdFlush 0 := rfl
@[simp] theorem State.raiseFail_line (kind : FailKind) : (s.raiseFail kind).line = s.line := rfl
@[simp] theorem State.raiseFail_sampled (kind : FailKind) : (s.raiseFail kind).sampled = s.sampled := rfl
@[simp] theorem State.raiseFail_trace (kind : FailKind) : (s.raiseFail kind).trace = s.trace := rfl
@[simp] theorem State.raiseFail_img (kind : FailKind) : (s.raiseFail kind).img = s.img := rfl
@[simp] theorem State.raiseFail_cfg (kind : FailKind) : (s.raiseFail kind).cfg = s.cfg := rfl
@[simp] theorem State.raiseFail_hostQ (kind : FailKind) : (s.raiseFail kind).hostQ = s.hostQ := rfl
@[simp] theorem State.raiseFail_result (kind : FailKind) : (s.raiseFail kind).result = s.result := rfl
@[simp] theorem State.raiseFail_oracle (kind : FailKind) : (s.raiseFail kind).oracle = s.oracle := rfl

/-! ## endPoweringDown -/

@[simp] theorem State.endPoweringDown_handleValid : (s.endPoweringDown).handleValid = s.handleValid := rfl
@[simp] theorem State.endPoweringDown_profile : (s.endPoweringDown).profile = s.profile := rfl
@[simp] theorem State.endPoweringDown_band : (s.endPoweringDown).band = s.band := rfl
@[simp] theorem State.endPoweringDown_comp : (s.endPoweringDown).comp = s.comp := rfl
@[simp] theorem State.endPoweringDown_compValid : (s.endPoweringDown).compValid = s.compValid := rfl
@[simp] theorem State.endPoweringDown_status : (s.endPoweringDown).status = s.status := rfl
@[simp] theorem State.endPoweringDown_pwr : (s.endPoweringDown).pwr = .off := rfl
@[simp] theorem State.endPoweringDown_fromFailed : (s.endPoweringDown).fromFailed = false := rfl
@[simp] theorem State.endPoweringDown_pinOut : (s.endPoweringDown).pinOut = s.pinOut := rfl
@[simp] theorem State.endPoweringDown_xportEn : (s.endPoweringDown).xportEn = s.xportEn := rfl
@[simp] theorem State.endPoweringDown_timerValid : (s.endPoweringDown).timerValid = s.timerValid := rfl
@[simp] theorem State.endPoweringDown_lbSize : (s.endPoweringDown).lbSize = s.lbSize := rfl
@[simp] theorem State.endPoweringDown_lb : (s.endPoweringDown).lb = s.lb := rfl
@[simp] theorem State.endPoweringDown_ctl : (s.endPoweringDown).ctl = .idle := rfl
@[simp] theorem State.endPoweringDown_line : (s.endPoweringDown).line = s.line := rfl
@[simp] theorem State.endPoweringDown_sampled : (s.endPoweringDown).sampled = Sampled.none := rfl
@[simp] theorem State.endPoweringDown_trace : (s.endPoweringDown).trace = s.trace := rfl
@[simp] theorem State.endPoweringDown_img : (s.endPoweringDown).img = s.img := rfl
@[simp] theorem State.endPoweringDown_cfg : (s.endPoweringDown).cfg = s.cfg := rfl
@[simp] theorem State.endPoweringDown_hostQ : (s.endPoweringDown).hostQ = s.hostQ := rfl
@[simp] theorem State.endPoweringDown_result : (s.endPoweringDown).result = s.result := rfl
@[simp] theorem State.endPoweringDown_oracle : (s.endPoweringDown).oracle = s.oracle := rfl

/-! ## abortToFinal -/

@[simp] theorem State.abortToFinal_handleValid : (s.abortToFinal).handleValid = s.handleValid := rfl
@[simp] theorem State.abortToFinal_profile : (s.abortToFinal).profile = s.profile := rfl
@[simp] theorem State.abortToFinal_band : (s.abortToFinal).band = s.band := rfl
@[simp] theorem State.abortToFinal_comp : (s.abortToFinal).comp = s.comp := rfl
@[simp] theorem State.abortToFinal_compValid : (s.abortToFinal).compValid = s.compValid := rfl
@[simp] theorem State.abortToFinal_status : (s.abortToFinal).status = if s.fromFailed then s.status else some .dcFailed := rfl
@[simp] theorem State.abortToFinal_pwr : (s.abortToFinal).pwr = s.pwr := rfl
@[simp] theorem State.abortToFinal_fromFailed : (s.abortToFinal).fromFailed = s.fromFailed := rfl
@[simp] theorem State.abortToFinal_pinOut : (s.abortToFinal).pinOut = s.pinOut := rfl
@[simp] theorem State.abortToFinal_xportEn : (s.abortToFinal).xportEn = s.xportEn := rfl
@[simp] theorem State.abortToFinal_timerValid : (s.abortToFinal).timerValid = s.timerValid := rfl
@[simp] theorem State.abortToFinal_lbSize : (s.abortToFinal).lbSize = s.lbSize := rfl
@[simp] theorem State.abortToFinal_lb : (s.abortToFinal).lb = s.lb := rfl
@[simp] theorem State.abortToFinal_ctl : (s.abortToFinal).ctl = .pdFinal 0 := rfl
@[simp] theorem State.abortToFinal_line : (s.abortToFinal).line = s.line := rfl
@[simp] theorem State.abortToFinal_sampled : (s.abortToFinal).sampled = s.sampled := rfl
@[simp] theorem State.abortToFinal_trace : (s.abortToFinal).trace = s.trace := rfl
@[simp] theorem State.abortToFinal_img : (s.abortToFinal).img = s.img := rfl
@[simp] theorem State.abortToFinal_cfg : (s.abortToFinal).cfg = s.cfg := rfl
@[simp] theorem State.abortToFinal_hostQ : (s.abortToFinal).hostQ = s.hostQ := rfl
@[simp] theorem State.abortToFinal_result : (s.abortToFinal).result = s.result := rfl
@[simp] theorem State.abortToFinal_oracle : (s.abortToFinal).oracle = s.oracle := rfl

end Sys2Proof.Machine
end

