-- ==== Sys2Proof/Laws/Memory.lean ====
section
/-! SUPPORT. The laws of memory: read after write, the canonical form, and what a list of bytes written or read does. -/

namespace Sys2Proof.Machine

theorem Memory.read_write_same (m : Memory) (a : Nat) (b : Byte) : Memory.read (Memory.write m a b) a = some b := by
  induction m with
  | nil => simp [Memory.write, Memory.read]
  | cons c m ih =>
    obtain ⟨k, v⟩ := c
    simp only [Memory.write]
    split
    · simp [Memory.read]
    · split
      · simp [Memory.read]
      · rename_i h1 h2
        have : k ≠ a := fun h => h2 h.symm
        simp [Memory.read, this, ih]

theorem Memory.read_write_other (m : Memory) {a a' : Nat} (b : Byte) (h : a' ≠ a) :
    Memory.read (Memory.write m a b) a' = Memory.read m a' := by
  induction m with
  | nil => simp [Memory.write, Memory.read, h.symm]
  | cons c m ih =>
    obtain ⟨k, v⟩ := c
    simp only [Memory.write]
    split
    · simp [Memory.read, h.symm]
    · split
      · rename_i h1 h2
        subst h2
        simp [Memory.read, h.symm]
      · simp [Memory.read, ih]

/-- The cells after a write are the new one and old ones. -/
theorem Memory.mem_write {m : Memory} {a : Nat} {b : Byte} {c : Host.Cell} (h : c ∈ Memory.write m a b) :
    c = (a, b) ∨ c ∈ m := by
  induction m with
  | nil => simpa [Memory.write] using h
  | cons d m ih =>
    obtain ⟨k, v⟩ := d
    simp only [Memory.write] at h
    split at h
    · simpa using h
    · split at h
      · rcases List.mem_cons.1 h with h | h
        · exact .inl h
        · exact .inr (List.mem_cons_of_mem _ h)
      · rcases List.mem_cons.1 h with h | h
        · exact .inr (by simp [h])
        · rcases ih h with h | h
          · exact .inl h
          · exact .inr (List.mem_cons_of_mem _ h)

theorem Memory.wf_write {m : Memory} (a : Nat) (b : Byte) (h : Memory.wf m = true) : Memory.wf (Memory.write m a b) = true := by
  induction m with
  | nil => simp [Memory.write, Memory.wf]
  | cons c m ih =>
    obtain ⟨k, v⟩ := c
    simp only [Memory.wf, Bool.and_eq_true, List.all_eq_true, decide_eq_true_eq] at h
    obtain ⟨hk, hm⟩ := h
    simp only [Memory.write]
    split
    · rename_i hlt
      simp only [Memory.wf, Bool.and_eq_true, List.all_eq_true, decide_eq_true_eq]
      refine ⟨?_, hk, hm⟩
      intro c hc
      rcases List.mem_cons.1 hc with rfl | hc
      · exact hlt
      · exact hlt.trans (hk c hc)
    · split
      · rename_i _ heq
        subst heq
        simp only [Memory.wf, Bool.and_eq_true, List.all_eq_true, decide_eq_true_eq]
        exact ⟨hk, hm⟩
      · rename_i h1 h2
        simp only [Memory.wf, Bool.and_eq_true, List.all_eq_true, decide_eq_true_eq]
        refine ⟨?_, ih hm⟩
        intro c hc
        rcases Memory.mem_write hc with rfl | hc
        · exact Nat.lt_of_le_of_ne (Nat.le_of_not_lt h1) (fun h => h2 h.symm)
        · exact hk c hc

theorem Memory.wf_writeList {m : Memory} (a : Nat) (bs : List Byte) (h : Memory.wf m = true) :
    Memory.wf (Memory.writeList m a bs) = true := by
  induction bs generalizing m a with
  | nil => exact h
  | cons b bs ih => exact ih (a + 1) (Memory.wf_write a b h)

theorem Memory.wf_ofList (bs : List Byte) : Memory.wf (Memory.ofList bs) = true := Memory.wf_writeList 0 bs rfl

/-- The reset state's spaces are in canonical form. -/
theorem reset_memoryOk : State.reset.MemoryOk := ⟨rfl, rfl⟩

/-- The cells after a list is written: old ones, and new ones inside the list's range. -/
theorem Memory.mem_writeList {m : Memory} {a : Nat} {bs : List Byte} {c : Host.Cell} (h : c ∈ Memory.writeList m a bs) :
    c ∈ m ∨ (a ≤ c.1 ∧ c.1 < a + bs.length) := by
  induction bs generalizing m a with
  | nil => exact .inl h
  | cons b bs ih =>
    rcases ih h with h | h
    · rcases Memory.mem_write h with rfl | h
      · exact .inr ⟨Nat.le_refl _, by simp⟩
      · exact .inl h
    · exact .inr ⟨by omega, by simp; omega⟩

/-- Outside the list's range a read is as before. -/
theorem Memory.read_writeList_outside (m : Memory) (a : Nat) (bs : List Byte) {x : Nat} (h : x < a ∨ a + bs.length ≤ x) :
    Memory.read (Memory.writeList m a bs) x = Memory.read m x := by
  induction bs generalizing m a with
  | nil => rfl
  | cons b bs ih =>
    simp only [Memory.writeList, List.length_cons] at *
    rw [ih _ _ (by omega), Memory.read_write_other _ _ (by omega)]

/-- Inside the range a read gives the list's byte. -/
theorem Memory.read_writeList_inside (m : Memory) (a : Nat) (bs : List Byte) {i : Nat} (h : i < bs.length) :
    Memory.read (Memory.writeList m a bs) (a + i) = some bs[i] := by
  induction bs generalizing m a i with
  | nil => simp at h
  | cons b bs ih =>
    simp only [Memory.writeList]
    cases i with
    | zero =>
      rw [Memory.read_writeList_outside _ _ _ (by omega)]
      simpa using Memory.read_write_same m a b
    | succ i =>
      have := ih (Memory.write m a b) (a + 1) (i := i) (by simpa using h)
      simpa [Nat.add_assoc, Nat.add_comm 1 i] using this

/-- Reading a list gives that many bytes. -/
theorem Memory.readList_length {m : Memory} {a n : Nat} {bs : List Byte} (h : Memory.readList m a n = some bs) :
    bs.length = n := by
  induction n generalizing a bs with
  | zero => simp [Memory.readList] at h; simp [← h]
  | succ n ih =>
    simp only [Memory.readList] at h
    split at h
    · rename_i b bs' h1 h2
      cases h
      simp [ih h2]
    · cases h

/-- A list reads back as one whose bytes are all there. -/
theorem Memory.readList_of_reads {m : Memory} {a : Nat} {bs : List Byte}
    (h : ∀ i (hi : i < bs.length), Memory.read m (a + i) = some bs[i]) : Memory.readList m a bs.length = some bs := by
  induction bs generalizing a with
  | nil => rfl
  | cons b bs ih =>
    have h0 : Memory.read m a = some b := h 0 (Nat.succ_pos _)
    have h1 : Memory.readList m (a + 1) bs.length = some bs := by
      refine ih (fun i hi => ?_)
      have := h (i + 1) (by simpa using hi)
      simpa [Nat.add_assoc, Nat.add_comm 1 i] using this
    simp [Memory.readList, h0, h1]

/-- What has been written reads back. -/
theorem Memory.readList_writeList (m : Memory) (a : Nat) (bs : List Byte) :
    Memory.readList (Memory.writeList m a bs) a bs.length = some bs :=
  Memory.readList_of_reads fun _ hi => Memory.read_writeList_inside m a bs hi

/-- A list of bytes that all hold a value can be read. -/
theorem Memory.readList_isSome {m : Memory} {a n : Nat} (h : ∀ i < n, (Memory.read m (a + i)).isSome = true) :
    ∃ bs, Memory.readList m a n = some bs := by
  induction n generalizing a with
  | zero => exact ⟨[], rfl⟩
  | succ n ih =>
    obtain ⟨b, hb⟩ := Option.isSome_iff_exists.1 (h 0 (Nat.succ_pos n))
    obtain ⟨bs, hbs⟩ := ih (a := a + 1) (fun i hi => by
      have := h (i + 1) (by omega)
      simpa [Nat.add_assoc, Nat.add_comm 1 i] using this)
    exact ⟨b :: bs, by simp only [Nat.add_zero] at hb; simp [Memory.readList, hb, hbs]⟩

/-- Every byte of an image is there. -/
theorem Memory.read_ofList (bs : List Byte) {i : Nat} (h : i < bs.length) : Memory.read (Memory.ofList bs) i = some bs[i] := by
  simpa [Memory.ofList] using Memory.read_writeList_inside [] 0 bs h

end Sys2Proof.Machine
end

