-- ==== Sys2Proof/Laws/Ops.lean ====
section
/-! SUPPORT. For each shared operation, what it can do: the gates of the host commands, the reads of elements that may hold no
value, the pieces of the sequencer, the oracle's draws. -/

namespace Sys2Proof.Machine

/-- A gated command answers a next state exactly when it passes the gate and goes on to it. -/
theorem withHandle_next {s t : State} {k : Result} :
    withHandle s k = .next t ↔ s.atIdle = true ∧ s.handleValid = true ∧ k = .next t := by
  unfold withHandle
  cases s.atIdle <;> cases s.handleValid <;> simp

theorem withHandle_of {s : State} (hi : s.atIdle = true) (hh : s.handleValid = true) (k : Result) : withHandle s k = k := by
  simp [withHandle, hi, hh]

/-- A gated command refuses for the gate's two reasons or for its own. -/
theorem withHandle_refused {s : State} {k : Result} {r : Refusal} (h : withHandle s k = .refused r) :
    (s.atIdle = false ∧ r = .busy) ∨ (s.atIdle = true ∧ s.handleValid = false ∧ r = .noHandle) ∨
      (s.atIdle = true ∧ s.handleValid = true ∧ k = .refused r) := by
  unfold withHandle at h
  cases hi : s.atIdle <;> cases hh : s.handleValid <;> simp [hi, hh] at h <;> simp [h]

theorem atIdle_iff {s : State} : s.atIdle = true ↔ s.ctl = .idle ∧ s.line = none := by
  simp [State.atIdle]

theorem withProfile_next {s t : State} {k : PanelProfile → Result} :
    withProfile s k = .next t ↔ ∃ p, s.profile = some p ∧ k p = .next t := by
  unfold withProfile
  cases s.profile <;> simp

theorem withProfile_of {s : State} {p : PanelProfile} (h : s.profile = some p) (k : PanelProfile → Result) :
    withProfile s k = k p := by
  simp [withProfile, h]

theorem withComp_next {s t : State} {k : CompProfile → Result} :
    withComp s k = .next t ↔ ∃ c, s.comp = some c ∧ k c = .next t := by
  unfold withComp
  cases s.comp <;> simp

theorem withComp_of {s : State} {c : CompProfile} (h : s.comp = some c) (k : CompProfile → Result) : withComp s k = k c := by
  simp [withComp, h]

theorem withSaneComp_next {s t : State} {k : CompProfile → Result} :
    withSaneComp s k = .next t ↔ s.compValid = true ∧ ∃ c, s.comp = some c ∧ c.ok = true ∧ k c = .next t := by
  unfold withSaneComp
  cases s.compValid
  · simp
  · simp only [Bool.not_true, Bool.false_eq_true, if_false, withComp_next, true_and]
    refine exists_congr fun c => and_congr_right fun _ => ?_
    cases c.ok <;> simp

theorem testSample_some {α : Type} {v : Option α} {x : α} (h : v = some x) (e : Element) (k : α → Result) :
    testSample v e k = k x := by
  simp [testSample, h]

theorem testSample_next {α : Type} {v : Option α} {e : Element} {k : α → Result} {t : State} :
    testSample v e k = .next t ↔ ∃ x, v = some x ∧ k x = .next t := by
  unfold testSample
  cases v <;> simp

/-- A straight piece goes to its next event while there is one. -/
theorem afterPiece_more {code : List Instr} {k : Nat} (h : k + 1 < code.length) (stay : Nat → Ctl) (t : State) (done : Result) :
    afterPiece code k stay t done = .next { t with ctl := stay (k + 1) } := by
  simp [afterPiece, h]

/-- A straight piece ends after its last event. -/
theorem afterPiece_last {code : List Instr} {k : Nat} (h : k + 1 = code.length) (stay : Nat → Ctl) (t : State) (done : Result) :
    afterPiece code k stay t done = done := by
  simp [afterPiece, h]

theorem fetchAt_run {code : List Instr} {k : Nat} {s s1 : State} {i : Instr} :
    fetchAt code k s = .run i s1 ↔ code[k]? = some i ∧ s1 = s := by
  unfold fetchAt
  cases code[k]? <;> simp [eq_comm]

theorem fetchAt_of_lt {code : List Instr} {k : Nat} (h : k < code.length) (s : State) :
    fetchAt code k s = .run code[k] s := by
  simp [fetchAt, h]

theorem fetchWithProfile_run {s s1 : State} {i : Instr} {k : PanelProfile → Fetch} :
    fetchWithProfile s k = .run i s1 ↔ ∃ p, s.profile = some p ∧ k p = .run i s1 := by
  unfold fetchWithProfile
  cases s.profile <;> simp

theorem fetchWithProfile_of {s : State} {p : PanelProfile} (h : s.profile = some p) (k : PanelProfile → Fetch) :
    fetchWithProfile s k = k p := by
  simp [fetchWithProfile, h]

theorem fetchWithComp_run {s s1 : State} {i : Instr} {k : CompProfile → Fetch} :
    fetchWithComp s k = .run i s1 ↔ ∃ c, s.comp = some c ∧ k c = .run i s1 := by
  unfold fetchWithComp
  cases s.comp <;> simp

theorem fetchWithComp_of {s : State} {c : CompProfile} (h : s.comp = some c) (k : CompProfile → Fetch) :
    fetchWithComp s k = k c := by
  simp [fetchWithComp, h]

/-- Within a pass the next place is one offset on. -/
theorem scanNext_offset {lines : Nat} {sh : ScanShape} {q : ScanPos} (h : q.offset + 1 < sh.block) :
    scanNext lines sh q = some { q with offset := q.offset + 1 } := by
  simp [scanNext, h]

/-- The oracle's row has the length asked for (44 R222 (a)). -/
theorem drawRowL_length (n : Nat) (o : Oracle) : (Oracle.drawRowL n o).1.length = n := by
  induction n generalizing o with
  | zero => rfl
  | succ n ih => simp [Oracle.drawRowL, ih]

/-- A transport read answers as many bytes as asked for (44 R222 (a)). -/
theorem drawXport_length (n : Nat) (o : Oracle) : (Oracle.drawXport n o).1.length = n := by
  induction n generalizing o with
  | zero => rfl
  | succ n ih => simp [Oracle.drawXport, ih]

end Sys2Proof.Machine
end

