-- ==== Sys2Proof/Laws/Line.lean ====
section
/-! SUPPORT. The Line Encoder: section lengths, the payload's length, and what LINE_DATA can do. -/

namespace Sys2Proof.Machine

theorem oddSection_length {p : PanelProfile} {data : Option (List Byte)} (h : dataFits p data = true) (fixed : Byte)
    (pol : Polarity) : (oddSection p.bytesPerLine data fixed pol).length = p.bytesPerLine := by
  cases data with
  | none => simp [oddSection]
  | some d => simpa [oddSection, dataFits] using h

theorem evenSection_length {p : PanelProfile} {data : Option (List Byte)} (h : dataFits p data = true) (fixed : Byte)
    (pol : Polarity) : (evenSection p.bytesPerLine data fixed pol).length = p.bytesPerLine := by
  cases data with
  | none => simp [evenSection]
  | some d => simpa [evenSection, dataFits] using h

theorem scanSection_length (nd : NegDiv) (lines bps : Nat) (row : LineRow) : (scanSection nd lines bps row).length = bps := by
  simp [scanSection]

/-- The payload of a line whose data fits has the length of 43 R191. -/
theorem lineBytes_length {p : PanelProfile} {data : Option (List Byte)} (h : dataFits p data = true) (cfg : Cfg) (row : LineRow)
    (fixed : Byte) (pol : Polarity) (border : Byte) : (lineBytes cfg p row data fixed pol border).length = payloadLength p := by
  simp only [lineBytes, payloadBytes, linePayload, List.length_cons, List.length_append, oddSection_length h,
    evenSection_length h, scanSection_length, payloadLength]
  omega

/-- What LINE_DATA does when it answers a next state. -/
theorem execLineData_next {row : LineRow} {data : Option (List Byte)} {fixed : Byte} {pol : Polarity} {border : Byte}
    {s t : State} :
    execLineData row data fixed pol border s = .next t ↔
      ∃ p, s.profile = some p ∧ dataFits p data = true ∧ payloadLength p ≤ s.lbSize ∧
        t = { s.emit .xportEnable with
              xportEn := some true
              lb := Memory.writeList s.lb 0 (lineBytes s.cfg p row data fixed pol border)
              line := some .send } := by
  unfold execLineData
  rw [withProfile_next]
  refine exists_congr fun p => and_congr_right fun _ => ?_
  cases hd : dataFits p data
  · simp
  · by_cases hl : s.lbSize < payloadLength p
    · simp [hl]
    · simp [hl, Nat.le_of_not_lt hl, eq_comm]

end Sys2Proof.Machine
end

