-- ==== Sys2Proof/Laws/Step.lean ====
section
/-! SUPPORT. What a step can do, said once: it waits, or it runs the fetched instruction and moves on; a command that starts an
operation is followed by its first event. -/

namespace Sys2Proof.Machine

/-- One instruction that answers a next state: the machine waits, or it runs the fetched instruction and advances. -/
theorem runInstruction_next_cases {s t : State} (h : runInstruction s = .next t) :
    (fetch s = .wait ∧ t = s) ∨
      ∃ i s1 u, fetch s = .run i s1 ∧ exec i s1 = .next u ∧ advance s u = .next t := by
  unfold runInstruction at h
  cases hf : fetch s with
  | wait => rw [hf] at h; cases h; exact .inl ⟨rfl, rfl⟩
  | run i s1 =>
    simp only [hf] at h
    cases he : exec i s1 with
    | next u => rw [he] at h; exact .inr ⟨i, s1, u, rfl, he, h⟩
    | fault r => rw [he] at h; cases h
    | refused r => rw [he] at h; cases h
  | fault r => rw [hf] at h; cases h
  | refused r => rw [hf] at h; cases h

theorem runInstruction_of_run {s s1 u : State} {i : Instr} (hf : fetch s = .run i s1) (he : exec i s1 = .next u) :
    runInstruction s = advance s u := by
  simp [runInstruction, hf, he]

theorem quiet_iff {s : State} : s.Quiet ↔ s.atIdle = true := atIdle_iff.symm

/-- While an operation runs a step is one instruction. -/
theorem step_running {s : State} (h : ¬ s.Quiet) : step s = runInstruction s := by
  rw [quiet_iff, Bool.not_eq_true] at h
  unfold step runStep
  cases runInstruction s <;> simp [h]

/-- A step while an operation runs whose instruction answers a next state is the move of the control state after it. -/
theorem step_of_run {s s1 u : State} {i : Instr} (hq : ¬ s.Quiet) (hf : fetch s = .run i s1) (he : exec i s1 = .next u) :
    step s = advance s u := by
  rw [step_running hq, runInstruction_of_run hf he]

/-- Every step that answers a next state is one instruction, or a command that starts an operation and the operation's first. -/
theorem step_next_cases {s t : State} (h : step s = .next t) :
    (runInstruction s = .next t ∧ (s.Quiet → t.Quiet)) ∨
      ∃ u, s.Quiet ∧ ¬ u.Quiet ∧ runInstruction s = .next u ∧ runInstruction u = .next t := by
  unfold step runStep at h
  cases hr : runInstruction s with
  | next u =>
    simp only [hr] at h
    split at h
    · rename_i hi
      rw [Bool.and_eq_true, Bool.not_eq_true', ← Bool.not_eq_true, ← quiet_iff, ← quiet_iff] at hi
      exact .inr ⟨u, hi.1, hi.2, rfl, h⟩
    · rename_i hi
      cases h
      rw [Bool.and_eq_true, Bool.not_eq_true', ← Bool.not_eq_true, ← quiet_iff, ← quiet_iff] at hi
      exact .inl ⟨rfl, fun hs => Classical.byContradiction fun ht => hi ⟨hs, ht⟩⟩
  | fault r => rw [hr] at h; cases h
  | refused r => rw [hr] at h; cases h

theorem fetch_idle {s : State} (hc : s.ctl = .idle) (hl : s.line = none) : fetch s = fetchHost s := by
  simp [fetch, hc, hl]

theorem fetch_operation {s : State} (hc : s.ctl ≠ .idle) (hl : s.line = none) : fetch s = fetchOperation s := by
  simp [fetch, hc, hl]

theorem fetch_line {s : State} {phase : LinePhase} (hl : s.line = some phase) : fetch s = fetchLine phase s := by
  simp [fetch, hl]

/-- After a host command nothing more moves. -/
theorem advance_idle {s t : State} (hc : s.ctl = .idle) (hl : s.line = none) : advance s t = .next t := by
  simp [advance, hc, hl]

/-- After an event of an operation, outside a Line, the operation moves on. -/
theorem advance_operation {s t : State} (hc : s.ctl ≠ .idle) (hl : s.line = none) (hl' : t.line = none) :
    advance s t = advanceOperation t := by
  simp [advance, hc, hl, hl']

/-- A Line that has just begun keeps the operation where it is. -/
theorem advance_lineBegun {s t : State} (hc : s.ctl ≠ .idle) (hl : s.line = none) (hl' : t.line ≠ none) :
    advance s t = .next t := by
  simp [advance, hc, hl, hl']

/-- What a host fetch can give. -/
theorem fetchHost_run {s s1 : State} {i : Instr} (h : fetchHost s = .run i s1) :
    ∃ w rest, s.hostQ = w :: rest ∧ decode (.host w) = .ok i ∧ s1 = { s with hostQ := rest } := by
  unfold fetchHost at h
  cases hq : s.hostQ with
  | nil => rw [hq] at h; cases h
  | cons w rest =>
    simp only [hq] at h
    cases hd : decode (.host w) with
    | ok j => rw [hd] at h; cases h; exact ⟨w, rest, rfl, hd, rfl⟩
    | error e => rw [hd] at h; cases h

/-- A host word decodes to a host command. -/
theorem decode_host_isHostCommand {w : HostWord} {i : Instr} (h : decode (.host w) = .ok i) : isHostCommand i = true := by
  simp only [decode, decodeHost] at h
  split at h <;> cases h <;> rfl

/-- What a step does with the host's next command: a refusal or a fault is the step's; a command that starts no operation is
over; one that starts an operation is followed by the operation's first event. -/
theorem step_host {s : State} {w : HostWord} {rest : List HostWord} {i : Instr} (hq : s.Quiet) (hw : s.hostQ = w :: rest)
    (hd : decode (.host w) = .ok i) :
    step s = match exec i { s with hostQ := rest } with
      | .next t => if t.atIdle then .next t else step t
      | .fault r => .fault r
      | .refused r => .refused r := by
  have hf : fetch s = .run i { s with hostQ := rest } := by rw [fetch_idle hq.1 hq.2]; simp [fetchHost, hw, hd]
  have hi : s.atIdle = true := quiet_iff.1 hq
  have hr : runInstruction s = exec i { s with hostQ := rest } := by
    simp only [runInstruction, hf]
    cases exec i { s with hostQ := rest } <;> simp [advance_idle hq.1 hq.2]
  unfold step runStep
  rw [hr]
  cases exec i { s with hostQ := rest } with
  | next t =>
    cases ht : t.atIdle
    · simp only [hi, ht, Bool.not_false, Bool.and_true, if_true, Bool.false_eq_true, if_false]
      cases runInstruction t <;> simp
    · simp [ht]
  | fault r => rfl
  | refused r => rfl

/-- With no command queued the machine waits. -/
theorem step_wait {s : State} (hq : s.Quiet) (hw : s.hostQ = []) : step s = .next s := by
  have hf : fetch s = .wait := by rw [fetch_idle hq.1 hq.2]; simp [fetchHost, hw]
  simp [step, runStep, runInstruction, hf]

/-- `m + n` steps are `m` steps and then `n` (Host.Core.run). -/
theorem run_add {m n : Nat} {s t : State} (h : Host.Core.run Sys2Proof.core m s = .next t) :
    Host.Core.run Sys2Proof.core (m + n) s = Host.Core.run Sys2Proof.core n t := by
  induction m generalizing s with
  | zero => cases h; simp
  | succ m ih =>
    rw [Nat.add_right_comm]
    simp only [Host.Core.run] at h ⊢
    cases hs : Host.Core.step Sys2Proof.core s with
    | next s' => rw [hs] at h; exact ih h
    | fault r => rw [hs] at h; cases h
    | refused r => rw [hs] at h; cases h

/-- One step and then `n`. -/
theorem run_succ {n : Nat} {s t : State} (h : step s = .next t) :
    Host.Core.run Sys2Proof.core (n + 1) s = Host.Core.run Sys2Proof.core n t := by
  have h' : Host.Core.step Sys2Proof.core s = .next t := h
  simp [Host.Core.run, h']

end Sys2Proof.Machine
end

