-- ==== Sys2Proof/Laws/PerInstr.lean ====
section
/-! SUPPORT. Statements made per instruction: the encoding of a well-formed instruction decodes to it. -/

namespace Sys2Proof.Laws.RoundTrip

/-- The encoder and the decoder agree on this instruction. -/
def Statement (i : Instr) : Prop := wellFormed i = true → decode (encode i) = .ok i

theorem openPanel : ∀ sel, Statement (.openPanel sel) := fun _ _ => rfl
theorem close : Statement .close := fun _ => rfl
theorem setTemperature : ∀ celsius, Statement (.setTemperature celsius) := fun _ _ => rfl
theorem status : Statement .status := fun _ => rfl
theorem begin : Statement .begin := fun _ => rfl
theorem endPower : Statement .endPower := fun _ => rfl
theorem clear : Statement .clear := fun _ => rfl
theorem paint : ∀ image, Statement (.paint image) := fun _ _ => rfl
theorem lineData : ∀ row data fixed pol border, Statement (.lineData row data fixed pol border) := by
  intro row data fixed pol border h
  simp [encode, decode, h]
theorem readId : Statement .readId := fun _ => rfl
theorem oeDisable : Statement .oeDisable := fun _ => rfl
theorem readBreakage : Statement .readBreakage := fun _ => rfl
theorem powerSaving : Statement .powerSaving := fun _ => rfl
theorem channelSelect : ∀ mask, Statement (.channelSelect mask) := by
  intro mask h
  simpa [encode, decode, decodeCog, writeInstr, wellFormed] using h
theorem oscillatorOn : Statement .oscillatorOn := fun _ => rfl
theorem powerSetting : Statement .powerSetting := fun _ => rfl
theorem vcomLevel : Statement .vcomLevel := fun _ => rfl
theorem pumpPositive : Statement .pumpPositive := fun _ => rfl
theorem pumpNegative : Statement .pumpNegative := fun _ => rfl
theorem pumpVcom : Statement .pumpVcom := fun _ => rfl
theorem readDcdc : Statement .readDcdc := fun _ => rfl
theorem latchResetOn : Statement .latchResetOn := fun _ => rfl
theorem powerOffPositive : Statement .powerOffPositive := fun _ => rfl
theorem powerOffVcom : Statement .powerOffVcom := fun _ => rfl
theorem powerOffAllPumps : Statement .powerOffAllPumps := fun _ => rfl
theorem oscillatorOff : Statement .oscillatorOff := fun _ => rfl
theorem dischargeOn : Statement .dischargeOn := fun _ => rfl
theorem dischargeOff : Statement .dischargeOff := fun _ => rfl
theorem oeToPanel : Statement .oeToPanel := fun _ => rfl
theorem gpioConfigure : ∀ pin mode, Statement (.gpioConfigure pin mode) := fun _ _ _ => rfl
theorem gpioWrite : ∀ pin bit, Statement (.gpioWrite pin bit) := by
  intro pin bit _
  cases pin <;> rfl
theorem gpioRead : ∀ pin, Statement (.gpioRead pin) := fun _ _ => rfl
theorem xportEnable : Statement .xportEnable := fun _ => rfl
theorem xportDisable : Statement .xportDisable := fun _ => rfl
theorem xportSend : ∀ bytes, Statement (.xportSend bytes) := by
  intro bytes h
  simpa [encode, decode, decodeEvent, wellFormed] using h
theorem xportRead : ∀ command n, Statement (.xportRead command n) := by
  intro command n h
  have h' : n ≠ 0 := by simp [wellFormed] at h; omega
  simp [encode, decode, decodeEvent, h']
theorem delayMs : ∀ n, Statement (.delayMs n) := by
  intro n h
  have h' : n ≠ 0 := by simp [wellFormed] at h; omega
  simp [encode, decode, decodeEvent, h']
theorem delayUs : ∀ n, Statement (.delayUs n) := fun _ _ => rfl
theorem timerCreate : Statement .timerCreate := fun _ => rfl
theorem timerArm : ∀ ms, Statement (.timerArm ms) := fun _ _ => rfl
theorem timerQuery : Statement .timerQuery := fun _ => rfl

end Sys2Proof.Laws.RoundTrip
end

