-- ==== Sys2Proof/Laws/Sequencer.lean ====
section
/-! SUPPORT. The sequencer, said once: what a fetch may change, what an instruction of an operation does to the trace, and what
the move of the control state may change. -/

namespace Sys2Proof.Machine

/-- After a piece's event: its next place, or what follows it. -/
theorem afterPiece_next {code : List Instr} {k : Nat} {stay : Nat → Ctl} {t u : State} {done : Result}
    (h : afterPiece code k stay t done = .next u) : u = { t with ctl := stay (k + 1) } ∨ done = .next u := by
  unfold afterPiece at h
  split at h
  · cases h; exact .inl rfl
  · exact .inr h

/-- The move of the control state changes only the control state, `pwr`, `status`, `from_failed` and the sampled values. -/
theorem advanceOperation_frame {t u : State} (h : advanceOperation t = .next u) :
    u = { t with ctl := u.ctl, pwr := u.pwr, status := u.status, fromFailed := u.fromFailed, sampled := u.sampled } := by
  unfold advanceOperation at h
  split at h
  case h_1 => cases h; rfl
  case h_2 =>
    rcases afterPiece_next h with rfl | h
    · rfl
    · cases h; rfl
  case h_3 =>
    obtain ⟨b, -, h⟩ := testSample_next.1 h
    split at h <;> cases h <;> rfl
  case h_4 => cases h; rfl
  case h_5 => cases h; rfl
  case h_6 =>
    obtain ⟨b, -, h⟩ := testSample_next.1 h
    split at h <;> cases h <;> rfl
  case h_7 =>
    rcases afterPiece_next h with rfl | h
    · rfl
    · obtain ⟨b, -, h⟩ := testSample_next.1 h
      split at h <;> cases h <;> rfl
  case h_8 =>
    obtain ⟨p, -, h⟩ := withProfile_next.1 h
    rcases afterPiece_next h with rfl | h
    · rfl
    · cases h; rfl
  case h_9 =>
    rcases afterPiece_next h with rfl | h
    · rfl
    · obtain ⟨b, -, h⟩ := testSample_next.1 h
      split at h
      · cases h; rfl
      · split at h <;> cases h <;> rfl
  case h_10 =>
    rcases afterPiece_next h with rfl | h
    · rfl
    · cases h; rfl
  case h_11 =>
    obtain ⟨p, -, h⟩ := withProfile_next.1 h
    rcases afterPiece_next h with rfl | h
    · rfl
    · cases h; rfl
  case h_12 =>
    rcases afterPiece_next h with rfl | h
    · rfl
    · obtain ⟨b, -, h⟩ := testSample_next.1 h
      split at h <;> cases h <;> rfl
  case h_13 =>
    rcases afterPiece_next h with rfl | h
    · rfl
    · cases h; rfl
  case h_14 =>
    rcases afterPiece_next h with rfl | h
    · rfl
    · cases h; rfl
  case h_15 =>
    rcases afterPiece_next h with rfl | h
    · rfl
    · split at h <;> cases h <;> rfl
  case h_16 =>
    obtain ⟨p, -, h⟩ := withProfile_next.1 h
    obtain ⟨c, -, h⟩ := withComp_next.1 h
    cases h
    unfold afterScanLine
    split
    · rfl
    · unfold afterStage
      split <;> rfl
  case h_17 => cases h; rfl
  case h_18 =>
    obtain ⟨p, -, h⟩ := withProfile_next.1 h
    split at h <;> cases h <;> rfl
  case h_19 =>
    obtain ⟨b, -, h⟩ := testSample_next.1 h
    obtain ⟨c, -, h⟩ := withComp_next.1 h
    cases h
    unfold afterQuery
    split
    · rfl
    · split <;> rfl

/-- The same for the whole move, which may also change the position inside a Line. -/
theorem advance_frame {s t u : State} (h : advance s t = .next u) :
    u = { t with
            ctl := u.ctl, line := u.line, pwr := u.pwr, status := u.status, fromFailed := u.fromFailed
            sampled := u.sampled } := by
  unfold advance at h
  split at h
  · cases h; rfl
  · cases h; rfl
  · rw [advanceOperation_frame h]
  · split at h
    · cases h; rfl
    · split at h
      · rw [advanceOperation_frame h]
      · cases h; rfl

/-- What a scan line is: a LINE_DATA, on a state that differs at most by the oracle. -/
theorem fetchScan_run {p : PanelProfile} {c : CompProfile} {op : FrameOp} {stage : Stage} {n : Nat} {w : Int} {offset : Nat}
    {s s1 : State} {i : Instr} (h : fetchScan p c op stage n w offset s = .run i s1) :
    (∃ row data fixed pol border, i = .lineData row data fixed pol border) ∧ s1 = { s with oracle := s1.oracle } := by
  simp only [fetchScan] at h
  split at h
  · cases h; exact ⟨⟨_, _, _, _, _, rfl⟩, rfl⟩
  · split at h
    · cases h; exact ⟨⟨_, _, _, _, _, rfl⟩, rfl⟩
    · cases op with
      | clear => cases h; exact ⟨⟨_, _, _, _, _, rfl⟩, rfl⟩
      | paint =>
        simp only [fetchNominal, fetchImageLine] at h
        split at h
        · split at h
          · cases h; exact ⟨⟨_, _, _, _, _, rfl⟩, rfl⟩
          · cases h
        · cases h; exact ⟨⟨_, _, _, _, _, rfl⟩, rfl⟩

/-- What the fetch of an operation's next event gives: no host command, on a state that differs at most by `pwr` and oracle. -/
theorem fetchOperation_run {s s1 : State} {i : Instr} (h : fetchOperation s = .run i s1) :
    isHostCommand i = false ∧ s1 = { s with pwr := s1.pwr, oracle := s1.oracle } := by
  have piece : ∀ {code : List Instr} {k : Nat} {s' : State}, fetchAt code k s' = .run i s1 →
      (∀ j ∈ code, isHostCommand j = false) → isHostCommand i = false ∧ s1 = s' := by
    intro code k s' hf hc
    obtain ⟨hk, hs⟩ := fetchAt_run.1 hf
    exact ⟨hc i (List.mem_of_getElem? hk), hs⟩
  have same : ∀ {code : List Instr} {k : Nat}, fetchAt code k s = .run i s1 →
      (∀ j ∈ code, isHostCommand j = false) → isHostCommand i = false ∧ s1 = { s with pwr := s1.pwr, oracle := s1.oracle } := by
    intro code k hf hc
    obtain ⟨h1, rfl⟩ := piece hf hc
    exact ⟨h1, rfl⟩
  obtain ⟨h2, h3, h4, h5, h6, h7, h8, h9⟩ :
      (∀ j ∈ puPinsCode, isHostCommand j = false) ∧ (∀ j ∈ vfBreakageCode, isHostCommand j = false) ∧
      (∀ j ∈ vfPumpCode, isHostCommand j = false) ∧ (∀ j ∈ rdFinishCode, isHostCommand j = false) ∧
      (∀ j ∈ pdCheckCode, isHostCommand j = false) ∧ (∀ j ∈ pdRegsCode, isHostCommand j = false) ∧
      (∀ j ∈ pdFinalCode, isHostCommand j = false) ∧ (∀ j ∈ pdPulseCode, isHostCommand j = false) := by decide
  unfold fetchOperation at h
  obtain ⟨ctl, hc⟩ : ∃ ctl, s.ctl = ctl := ⟨_, rfl⟩
  rw [hc] at h
  cases ctl <;> simp only at h
  case idle => cases h
  case puPins => exact same h h2
  case puBusy => cases h; exact ⟨rfl, rfl⟩
  case puWait => cases h; exact ⟨rfl, rfl⟩
  case vfId => cases h; exact ⟨rfl, rfl⟩
  case vfBreakage => exact same h h3
  case vfInit =>
    obtain ⟨p, -, h⟩ := fetchWithProfile_run.1 h
    exact same h (by simp [vfInitCode, isHostCommand])
  case vfPump => exact same h h4
  case rdFinish => exact same h h5
  case pdFlush k =>
    obtain ⟨p, -, h⟩ := fetchWithProfile_run.1 h
    obtain ⟨h', rfl⟩ := piece h (by cases p.sizeClass <;> simp [pdFlushCode, dummyLine, isHostCommand])
    refine ⟨h', ?_⟩
    split
    · simp [hc]
    · rfl
  case pdCheck => exact same h h6
  case pdRegs => exact same h h7
  case pdFinal => exact same h h8
  case pdPulses => exact same h h9
  case scan =>
    obtain ⟨p, -, h⟩ := fetchWithProfile_run.1 h
    obtain ⟨c, -, h⟩ := fetchWithComp_run.1 h
    obtain ⟨⟨row, data, fixed, pol, border, rfl⟩, hs⟩ := fetchScan_run h
    exact ⟨rfl, by rw [hs]⟩
  case passArm =>
    obtain ⟨c, -, h⟩ := fetchWithComp_run.1 h
    cases h; exact ⟨rfl, rfl⟩
  case passRow => cases h; exact ⟨rfl, rfl⟩
  case passQuery => cases h; exact ⟨rfl, rfl⟩

/-- What the fetch inside a Line gives. -/
theorem fetchLine_run {phase : LinePhase} {s s1 : State} {i : Instr} (h : fetchLine phase s = .run i s1) :
    isHostCommand i = false ∧ s1 = s := by
  cases phase with
  | send =>
    obtain ⟨p, -, h⟩ := fetchWithProfile_run.1 h
    split at h
    · cases h
    · cases h; exact ⟨rfl, rfl⟩
  | outputEnable => cases h; exact ⟨rfl, rfl⟩
  | disable => cases h; exact ⟨rfl, rfl⟩

/-- A fetch changes at most the host's queue, `pwr` and the oracle. -/
theorem fetch_frame {s s1 : State} {i : Instr} (h : fetch s = .run i s1) :
    s1 = { s with hostQ := s1.hostQ, pwr := s1.pwr, oracle := s1.oracle } := by
  unfold fetch at h
  split at h
  · rw [(fetchLine_run h).2]
  · split at h
    · obtain ⟨w, rest, -, -, rfl⟩ := fetchHost_run h
      rfl
    · rw [(fetchOperation_run h).2]

/-- Inside an operation no host command is fetched. -/
theorem fetch_not_host {s s1 : State} {i : Instr} (hq : ¬ s.Quiet) (h : fetch s = .run i s1) : isHostCommand i = false := by
  unfold fetch at h
  split at h
  · exact (fetchLine_run h).1
  · split at h
    · rename_i hl hc
      exact absurd ⟨hc, hl⟩ hq
    · exact (fetchOperation_run h).1

/-- Every instruction but a host command appends exactly one event (00 R11). -/
theorem exec_emits {i : Instr} {s t : State} (hi : isHostCommand i = false) (h : exec i s = .next t) :
    ∃ e, t.trace = s.trace ++ [e] := by
  cases i
  case lineData row data fixed pol border =>
    obtain ⟨p, -, -, -, rfl⟩ := execLineData_next.1 h
    exact ⟨_, rfl⟩
  all_goals first
    | (simp [isHostCommand] at hi; done)
    | (cases h; exact ⟨_, rfl⟩)

/-- Inside an operation the machine never waits. -/
theorem fetch_ne_wait {s : State} (hq : ¬ s.Quiet) : fetch s ≠ .wait := by
  have at_ne : ∀ (code : List Instr) (k : Nat) (s' : State), fetchAt code k s' ≠ .wait := by
    intro code k s'
    unfold fetchAt
    split <;> nofun
  have profile_ne : ∀ k : PanelProfile → Fetch, (∀ p, k p ≠ .wait) → fetchWithProfile s k ≠ .wait := by
    intro k hk
    unfold fetchWithProfile
    split
    · nofun
    · exact hk _
  have comp_ne : ∀ k : CompProfile → Fetch, (∀ c, k c ≠ .wait) → fetchWithComp s k ≠ .wait := by
    intro k hk
    unfold fetchWithComp
    split
    · nofun
    · exact hk _
  unfold fetch
  split
  · rename_i phase _
    cases phase with
    | send =>
      refine profile_ne _ fun p => ?_
      split <;> nofun
    | outputEnable => nofun
    | disable => nofun
  · rename_i hl
    have hc : s.ctl ≠ .idle := fun hc => hq ⟨hc, hl⟩
    rw [if_neg hc]
    unfold fetchOperation
    split
    case h_1 h => exact absurd h hc
    case h_7 => exact profile_ne _ fun p => at_ne _ _ _
    case h_10 => exact profile_ne _ fun p => at_ne _ _ _
    case h_15 op stage n w offset _ =>
      refine profile_ne _ fun p => comp_ne _ fun c => ?_
      unfold fetchScan
      simp only
      split
      · nofun
      · split
        · nofun
        · cases op with
          | clear => nofun
          | paint =>
            simp only [fetchNominal, fetchImageLine]
            split
            · split <;> nofun
            · nofun
    case h_16 => exact comp_ne _ fun c => nofun
    all_goals first
      | exact at_ne _ _ _
      | nofun

/-- Inside an operation one instruction appends exactly one event (00 R11). -/
theorem runInstruction_emits {s t : State} (hq : ¬ s.Quiet) (h : runInstruction s = .next t) :
    ∃ e, t.trace = s.trace ++ [e] := by
  rcases runInstruction_next_cases h with ⟨hw, -⟩ | ⟨i, s1, u, hf, he, ha⟩
  · exact absurd hw (fetch_ne_wait hq)
  · obtain ⟨e, hu⟩ := exec_emits (fetch_not_host hq hf) he
    refine ⟨e, ?_⟩
    rw [advance_frame ha, ← show s1.trace = s.trace by rw [fetch_frame hf]]
    exact hu

end Sys2Proof.Machine
end

