-- ==== Sys2Proof/Tests/Slice0.lean ====
section
/-! SUPPORT. The model's own tests: the operand checks, the decoder on words written out from spec/30_encoding.md, one step of
each instruction against spec/95_test_vectors.md, and for each statement with hypotheses a witness that meets them. -/

namespace Sys2Proof.Tests

open Sys2Proof Sys2Proof.Machine

/-! ## Helpers: the configuration TESTCFG of 95_test_vectors.md section 0, and small states -/

/-- A profile from its nine numbers. -/
def profile9 (r1 s1 b1 r2 t1 t2 r3 s3 b3 : Nat) : CompProfile := ⟨r1, s1, b1, r2, t1, t2, r3, s3, b3⟩
/-- `COMP(S200, 1)` of TESTCFG. -/
def comp1 : CompProfile := profile9 2 2 4 1 100 50 2 2 4
/-- "any value meeting the constraint". -/
def compAny : CompProfile := profile9 1 1 1 0 0 0 1 1 1
/-- TESTCFG; its symbolic `CMD_LINE` and masks are any values that differ. -/
def cfg : Cfg where
  comp := ⟨⟨profile9 1 8 8 1 10 10 1 8 8, compAny, compAny⟩, ⟨compAny, comp1, compAny⟩, ⟨compAny, compAny, compAny⟩⟩
  chsel144 := List.replicate 9 0x01
  chsel270 := List.replicate 9 0x02
  cmdLine := 0x99
  breakageMask := 0x80
  dcdcMask := 0x40
  pdBorder := ⟨0x00, 0x00, 0x00⟩
  scanNegDiv := .floor

/-- After reset, on a platform with TESTCFG. -/
def blank : State := { State.reset with cfg := cfg }
/-- After a successful OPEN of the size class. -/
def opened (c : SizeClass) : State :=
  { blank with
    handleValid := true
    profile := some (profileOf cfg c)
    timerValid := true
    lbSize := scratchSize (profileOf cfg c) }
/-- The same on S200 after `set_temperature 25`. -/
def tempered : State := { opened .s200 with band := some 1, comp := some comp1, compValid := true }
/-- A list of answers to COG reads. -/
def cogAnswers (bs : List Byte) : Oracle := { State.reset.oracle with cog := bs }
/-- A BEGIN on S200 at a place of its pseudocode. -/
def inBegin (ctl : Ctl) (pwr : Pwr) : State :=
  { opened .s200 with ctl := ctl, pwr := pwr, status := some .ok, xportEn := some true }
/-- An END on a size class at a place of its pseudocode. -/
def inEnd (c : SizeClass) (ctl : Ctl) : State := { opened c with ctl := ctl, pwr := .poweringDown, status := some .ok }
/-- A CLEAR on S200 at a place of its pseudocode. -/
def inClear (ctl : Ctl) : State := { tempered with ctl := ctl }
/-- What a run of `exec` or `step` appended to the trace. -/
def appended : Result → Option (List Event)
  | .next t => some t.trace
  | _ => none

/-! ## The operand checks: an ill-formed term for each is refused -/

theorem test_wf_lineData_shortRow : wellFormed (.lineData (.row 0) (some (List.replicate 24 0)) 0 .normal 0) = false := by decide
theorem test_wf_lineData_rowTooHigh : wellFormed (.lineData (.row 177) none 0 .normal 0) = false := by decide
theorem test_wf_lineData_rowTooHighForItsData :
    wellFormed (.lineData (.row 97) (some (List.replicate 16 0)) 0 .normal 0) = false := by decide
theorem test_wf_lineData_rowL : wellFormed (.lineData (.row 96) (some (List.replicate 16 0xff)) 0 .inverse 0) = true := by decide
theorem test_wf_channelSelect_eightBytes : wellFormed (.channelSelect (List.replicate 8 0)) = false := by decide
theorem test_wf_xportSend_empty : wellFormed (.xportSend []) = false := by decide
theorem test_wf_xportRead_zero : wellFormed (.xportRead [0x70] 0) = false := by decide
theorem test_wf_delayMs_zero : wellFormed (.delayMs 0) = false := by decide

/-! ## Decoding: every constructor from the word or the name of 30 R91, R99, R100, R104 -/

theorem test_decode_hostCommands :
    decode (.host ⟨0b000, .selector 1⟩) = .ok (.openPanel 1) ∧
    decode (.host ⟨0b001, .none⟩) = .ok .close ∧
    decode (.host ⟨0b010, .celsius (-40)⟩) = .ok (.setTemperature (-40)) ∧
    decode (.host ⟨0b011, .none⟩) = .ok .status ∧
    decode (.host ⟨0b100, .none⟩) = .ok .begin ∧
    decode (.host ⟨0b101, .none⟩) = .ok .endPower ∧
    decode (.host ⟨0b110, .none⟩) = .ok .clear ∧
    decode (.host ⟨0b111, .image [0xff, 0x00]⟩) = .ok (.paint [0xff, 0x00]) := ⟨rfl, rfl, rfl, rfl, rfl, rfl, rfl, rfl⟩

/-- The words of the opcode table, bit 0 the least significant bit of `op`; no bit above bit 2 is the command's. -/
theorem test_decode_tableWords :
    (List.range 8).map (decodeTableWord 8) =
      [some (.openPanel 0), some .close, some (.setTemperature 0), some .status, some .begin, some .endPower, some .clear,
       some (.paint [])] ∧
    decodeTableWord 8 0b11111001 = some .close ∧ decodeTableWord 0 1 = none := by decide

theorem test_decode_line :
    decode (.line .noRow none 0x00 .normal 0x00) = .ok (.lineData .noRow none 0x00 .normal 0x00) := rfl

theorem test_decode_cogReads :
    decode (.cog (.read .readId) []) = .ok .readId ∧ decode (.cog (.read .readBreakage) []) = .ok .readBreakage ∧
    decode (.cog (.read .readDcdc) []) = .ok .readDcdc := ⟨rfl, rfl, rfl⟩

theorem test_decode_cogWrites_beginning :
    decode (.cog (.write .oeDisable) []) = .ok .oeDisable ∧
    decode (.cog (.write .powerSaving) []) = .ok .powerSaving ∧
    decode (.cog (.write .channelSelect) [0x72, 0x00, 0x00, 0x00, 0x00, 0x01, 0xff, 0xe0, 0x00]) =
      .ok (.channelSelect [0x72, 0x00, 0x00, 0x00, 0x00, 0x01, 0xff, 0xe0, 0x00]) ∧
    decode (.cog (.write .oscillatorOn) []) = .ok .oscillatorOn ∧
    decode (.cog (.write .powerSetting) []) = .ok .powerSetting ∧
    decode (.cog (.write .vcomLevel) []) = .ok .vcomLevel ∧
    decode (.cog (.write .pumpPositive) []) = .ok .pumpPositive ∧
    decode (.cog (.write .pumpNegative) []) = .ok .pumpNegative ∧
    decode (.cog (.write .pumpVcom) []) = .ok .pumpVcom := ⟨rfl, rfl, rfl, rfl, rfl, rfl, rfl, rfl, rfl⟩

theorem test_decode_cogWrites_ending :
    decode (.cog (.write .latchResetOn) []) = .ok .latchResetOn ∧
    decode (.cog (.write .powerOffPositive) []) = .ok .powerOffPositive ∧
    decode (.cog (.write .powerOffVcom) []) = .ok .powerOffVcom ∧
    decode (.cog (.write .powerOffAllPumps) []) = .ok .powerOffAllPumps ∧
    decode (.cog (.write .oscillatorOff) []) = .ok .oscillatorOff ∧
    decode (.cog (.write .dischargeOn) []) = .ok .dischargeOn ∧
    decode (.cog (.write .dischargeOff) []) = .ok .dischargeOff ∧
    decode (.cog (.write .oeToPanel) []) = .ok .oeToPanel := ⟨rfl, rfl, rfl, rfl, rfl, rfl, rfl, rfl⟩

theorem test_decode_events :
    decode (.event .gpioConfigure [.pin .busy, .mode .input]) = .ok (.gpioConfigure .busy .input) ∧
    decode (.event .gpioWrite [.pin .border, .bit true]) = .ok (.gpioWrite .border true) ∧
    decode (.event .gpioRead [.pin .busy]) = .ok (.gpioRead .busy) ∧
    decode (.event .xportEnable []) = .ok .xportEnable ∧
    decode (.event .xportDisable []) = .ok .xportDisable ∧
    decode (.event .xportSend [.bytes [0x12]]) = .ok (.xportSend [0x12]) ∧
    decode (.event .xportRead [.bytes [0x12], .nat 2]) = .ok (.xportRead [0x12] 2) ∧
    decode (.event .delayMs [.nat 240]) = .ok (.delayMs 240) ∧
    decode (.event .delayUs [.nat 10]) = .ok (.delayUs 10) ∧
    decode (.event .timerCreate []) = .ok .timerCreate ∧
    decode (.event .timerArm [.nat 100]) = .ok (.timerArm 100) ∧
    decode (.event .timerQuery []) = .ok .timerQuery := ⟨rfl, rfl, rfl, rfl, rfl, rfl, rfl, rfl, rfl, rfl, rfl, rfl⟩

/-- What the decoder refuses, by name. -/
theorem test_decode_refuses :
    decode (.host ⟨0b001, .selector 0⟩) = .error .wrongOperand ∧
    decode (.line (.row 177) none 0 .normal 0) = .error .lineOperands ∧
    decode (.cog (.write .powerSaving) [0x00]) = .error .cogData ∧
    decode (.cog (.write .channelSelect) [0x72]) = .error .cogData ∧
    decode (.event .gpioWrite [.pin .busy, .bit true]) = .error .eventArgs ∧
    decode (.event .xportSend [.bytes []]) = .error .eventArgs := ⟨rfl, rfl, rfl, rfl, rfl, rfl⟩

/-- The payload of V7 (a), by fields: 25 odd bytes, 24 scan bytes, 25 even bytes. -/
theorem test_decodePayload_s200 :
    decodePayload .s200 ([0x99, 0x00] ++ List.replicate 25 0xff ++ (List.replicate 23 0x00 ++ [0x03]) ++ List.replicate 25 0xff) =
      some ⟨0x99, 0x00, List.replicate 25 0xff, List.replicate 23 0x00 ++ [0x03], List.replicate 25 0xff⟩ := by decide

/-! ## Vectors of 95_test_vectors.md, one step each -/

/-- V1: `open 2.0` with both answers true. -/
theorem test_open_s200 :
    exec (.openPanel 1) { blank with oracle := { blank.oracle with timerCreate := [true], bufferAlloc := [true] } } =
      .next
        { opened .s200 with
          trace := [.timerCreate true], result := some .opened, oracle := { blank.oracle with draws := 2 } } := rfl

/-- V1: an unsupported size asks nothing. -/
theorem test_open_unsupported : exec (.openPanel 3) blank = .next { blank with result := some .unsupportedSize } := rfl

/-- V3: CLOSE leaves the pins and the transport; STATUS is refused after it. -/
theorem test_close :
    exec .close { tempered with pwr := .ready, xportEn := some false } =
      .next { blank with pwr := .ready, xportEn := some false } ∧
    exec .status blank = .refused .noHandle := ⟨rfl, rfl⟩

/-- V2: the band at its edges. -/
theorem test_band :
    [-1000000, -40, -1, 0, 9, 10, 11, 25, 39, 40, 41, 100, 1000000].map bandOf = [0, 0, 0, 0, 0, 1, 1, 1, 1, 1, 2, 2, 2] := by
  decide

/-- V3: `set_temperature 40`. -/
theorem test_setTemperature : exec (.setTemperature 40) (opened .s200) = .next tempered := rfl

/-- V3: STATUS after a failed BEGIN; code 1. -/
theorem test_status :
    exec .status { opened .s200 with status := some .unsupportedCOG } =
      .next { opened .s200 with status := some .unsupportedCOG, result := some (.status .unsupportedCOG) } ∧
    resultCode (.status .unsupportedCOG) = 1 := ⟨rfl, rfl⟩

/-- 41 R140: BEGIN rewrites `status` first, whatever it was. -/
theorem test_begin :
    exec .begin { opened .s200 with status := some .dcFailed } =
      .next { opened .s200 with status := some .ok, pwr := .poweringUp, ctl := .puPins 0 } := rfl

/-- 00 R11, 41 R142: the step that takes BEGIN off the queue emits the first of BEGIN's events and no more. -/
theorem test_begin_step :
    step { opened .s200 with hostQ := [⟨0b100, .none⟩] } =
      .next
        { opened .s200 with
          status := some .ok, pwr := .poweringUp, ctl := .puPins 1, trace := [.gpioWrite .reset false]
          pinOut := ⟨none, none, none, some false⟩ } := rfl

/-- 00 R11, 43 R190: the step that takes CLEAR off the queue emits the enable of the first line. -/
theorem test_clear_step : appended (step { tempered with hostQ := [⟨0b110, .none⟩] }) = some [.xportEnable] := rfl

/-- V12: the first event of END on S270 is the border pin driven low. -/
theorem test_end_firstEvent :
    appended (step { opened .s270 with hostQ := [⟨0b101, .none⟩] }) = some [.gpioWrite .border false] := rfl

/-- V8: stage 1 of CLEAR starts at window start -2. -/
theorem test_clear : exec .clear tempered = .next { tempered with ctl := .scan .clear .one 0 (-2) 0 } := rfl

/-- 42 R178: a held profile with step 0 is rejected. -/
theorem test_clear_badCompensation :
    exec .clear { tempered with comp := some (profile9 1 0 4 1 0 0 1 1 1) } = .refused .badCompensation := rfl

/-- V13: `paint` with one byte too few or too many. -/
theorem test_paint_badLength :
    ∀ img : List Byte, img.length = 2399 ∨ img.length = 2401 → exec (.paint img) tempered = .refused .badImageLength := by
  intro img h
  have hne : img.length ≠ imageLength (profileOf cfg .s200) := by
    have : imageLength (profileOf cfg .s200) = 2400 := rfl
    omega
  show (if img.length ≠ imageLength (profileOf cfg .s200) then Host.Outcome.refused _ else _) = _
  rw [if_pos hne]

/-- V4: OddCode on bytes that tell its bits apart. -/
theorem test_oddCode :
    [0x01, 0x02, 0x40, 0x80, 0x1b, 0x37, 0xdc].map (oddCode · .normal) = [0xab, 0xaa, 0xea, 0xaa, 0xbb, 0xbf, 0xfe] ∧
    [0x01, 0x02, 0x40, 0x80, 0x1b, 0x37, 0xdc].map (oddCode · .inverse) = [0xfe, 0xff, 0xbf, 0xff, 0xee, 0xea, 0xab] := by decide

/-- V4: EvenCode on the same bytes. -/
theorem test_evenCode :
    [0x01, 0x02, 0x40, 0x80, 0x1b, 0x37, 0xdc].map (evenCode · .normal) = [0xaa, 0xea, 0xaa, 0xab, 0xfa, 0xee, 0xbb] ∧
    [0x01, 0x02, 0x40, 0x80, 0x1b, 0x37, 0xdc].map (evenCode · .inverse) = [0xff, 0xbf, 0xff, 0xfe, 0xaf, 0xbb, 0xee] := by decide

/-- V6: the scan byte of a row, and of row L under both readings of SCAN_NEG_DIV. -/
theorem test_scanByte :
    scanSection .floor 96 24 (.row 50) = List.replicate 11 0x00 ++ [0x30] ++ List.replicate 12 0x00 ∧
    scanSection .floor 96 24 (.row 96) = List.replicate 24 0x00 ∧
    scanSection .trunc 96 24 (.row 96) = 0x03 :: List.replicate 23 0x00 := by decide

/-- V7 (c): a whole payload on S144, image row 1 of program P3 under Inverse. -/
theorem test_lineBytes :
    lineBytes cfg (profileOf cfg .s144) (.row 1)
      (some [0x73, 0x7a, 0x81, 0x88, 0x8f, 0x96, 0x9d, 0xa4, 0xab, 0xb2, 0xb9, 0xc0, 0xc7, 0xce, 0xd5, 0xdc]) 0x00 .inverse 0x00 =
      [0x99, 0x00] ++
      [0xab, 0xaa, 0xbb, 0xba, 0xbf, 0xee, 0xef, 0xfe, 0xfb, 0xea, 0xeb, 0xfa, 0xff, 0xfe, 0xaf, 0xae] ++
      (List.replicate 23 0x00 ++ [0x0c]) ++
      [0xbb, 0xab, 0xfe, 0xee, 0xae, 0xbe, 0xee, 0xfa, 0xaa, 0xba, 0xea, 0xfe, 0xbe, 0xae, 0xfe, 0xee] := by decide

/-- 43 R190: LINE_DATA refuses a row of the wrong length. -/
theorem test_lineData_badRow :
    exec (.lineData (.row 0) (some [0x00]) 0x00 .normal 0x00) tempered = .refused .badRowLength := rfl

/-- 41 R145: the high four bits of `id2` are ignored; `0x15` fails (V11). -/
theorem test_idOk : [0x02, 0x12, 0xf2, 0x32].map idOk = [true, true, true, true] ∧ [0x05, 0x15, 0x03].map idOk = [false, false, false] := by
  decide

/-- READ_ID, the second read: `0x15` leads to PoweringDown with the kind recorded (P2). -/
theorem test_readId_fails :
    step { inBegin (.vfId true) .verifying with oracle := cogAnswers [0x15] } =
      .next
        { inBegin (.pdFlush 0) (.failed .unsupportedCOG) with
          trace := [.cogRead .readId 0x15], status := some .unsupportedCOG, fromFailed := true
          oracle := { State.reset.oracle with draws := 1 } } := rfl

/-- READ_BREAKAGE: V11's row with `0x7f`, whose bit 7 is clear. -/
theorem test_readBreakage_fails :
    step { inBegin (.vfBreakage 1) .verifying with oracle := cogAnswers [0x7f] } =
      .next
        { inBegin (.pdFlush 0) (.failed .panelBroken) with
          trace := [.cogRead .readBreakage 0x7f], status := some .panelBroken, fromFailed := true
          oracle := { State.reset.oracle with draws := 1 } } := rfl

/-- READ_DCDC: the third attempt fails and the fourth starts (V11). -/
theorem test_readDcdc_retries :
    step { inBegin (.vfPump 3 6) .verifying with oracle := cogAnswers [0xbf] } =
      .next
        { inBegin (.vfPump 4 0) .verifying with
          trace := [.cogRead .readDcdc 0xbf], oracle := { State.reset.oracle with draws := 1 } } := rfl

/-- CHANNEL_SELECT carries the nine bytes of S200 (T7). -/
theorem test_channelSelect_step :
    appended (step (inBegin (.vfInit 1) .verifying)) =
      some [.cogWrite .channelSelect [0x72, 0x00, 0x00, 0x00, 0x00, 0x01, 0xff, 0xe0, 0x00]] := rfl

/-- The other set-up writes stand where 41 R146 and R147 put them. -/
theorem test_setUpWrites :
    appended (step (inBegin (.vfBreakage 0) .verifying)) = some [.cogWrite .oeDisable []] ∧
    appended (step (inBegin (.vfInit 0) .verifying)) = some [.cogWrite .powerSaving []] ∧
    appended (step (inBegin (.vfInit 2) .verifying)) = some [.cogWrite .oscillatorOn []] ∧
    appended (step (inBegin (.vfInit 3) .verifying)) = some [.cogWrite .powerSetting []] ∧
    appended (step (inBegin (.vfInit 4) .verifying)) = some [.cogWrite .vcomLevel []] := ⟨rfl, rfl, rfl, rfl, rfl⟩

/-- The three pump writes (41 R148). -/
theorem test_pumpWrites :
    appended (step (inBegin (.vfPump 1 0) .verifying)) = some [.cogWrite .pumpPositive []] ∧
    appended (step (inBegin (.vfPump 1 2) .verifying)) = some [.cogWrite .pumpNegative []] ∧
    appended (step (inBegin (.vfPump 1 4) .verifying)) = some [.cogWrite .pumpVcom []] := ⟨rfl, rfl, rfl⟩

/-- The register sequence of PoweringDown (41 R154). -/
theorem test_powerOffWrites :
    appended (step (inEnd .s200 (.pdRegs 0))) = some [.cogWrite .latchResetOn []] ∧
    appended (step (inEnd .s200 (.pdRegs 2))) = some [.cogWrite .powerOffPositive []] ∧
    appended (step (inEnd .s200 (.pdRegs 3))) = some [.cogWrite .powerOffVcom []] ∧
    appended (step (inEnd .s200 (.pdRegs 4))) = some [.cogWrite .powerOffAllPumps []] ∧
    appended (step (inEnd .s200 (.pdRegs 5))) = some [.cogWrite .oscillatorOff []] ∧
    appended (step (inEnd .s200 (.pdRegs 6))) = some [.cogWrite .dischargeOn []] ∧
    appended (step (inEnd .s200 (.pdRegs 8))) = some [.cogWrite .dischargeOff []] := ⟨rfl, rfl, rfl, rfl, rfl, rfl, rfl⟩

/-- OE_TO_PANEL follows the payload (43 R199). -/
theorem test_oeToPanel :
    appended (step { inClear (.passRow .clear 1 .first 0) with line := some .outputEnable }) = some [.cogWrite .oeToPanel []] := rfl

/-- GpioConfigure changes nothing but the trace (44 R210). -/
theorem test_gpioConfigure :
    exec (.gpioConfigure .busy .input) blank = .next { blank with trace := [.gpioConfigure .busy .input] } := rfl

/-- GpioWrite sets its latch and no other (44 R211). -/
theorem test_gpioWrite :
    exec (.gpioWrite .discharge true) { blank with pinOut := ⟨some true, none, some false, none⟩ } =
      .next { blank with trace := [.gpioWrite .discharge true], pinOut := ⟨some true, none, some true, none⟩ } := rfl

/-- GpioRead: a 1 keeps polling, the wait comes next (41 R143). -/
theorem test_gpioRead_busy :
    step { inBegin .puBusy .poweringUp with oracle := { State.reset.oracle with busy := [true, false] } } =
      .next
        { inBegin .puWait .poweringUp with
          trace := [.gpioRead .busy true], oracle := { State.reset.oracle with busy := [false], draws := 1 } } := rfl

/-- The transport events (44 R213 to R216). -/
theorem test_transport :
    exec .xportEnable blank = .next { blank with trace := [.xportEnable], xportEn := some true } ∧
    exec .xportDisable blank = .next { blank with trace := [.xportDisable], xportEn := some false } ∧
    exec (.xportSend [0x12, 0x34]) blank = .next { blank with trace := [.xportSend [0x12, 0x34]] } ∧
    exec (.xportRead [0x71] 2) { blank with oracle := { blank.oracle with xport := [0x00, 0x12, 0x77] } } =
      .next
        { blank with
          trace := [.xportRead [0x71] 2 [0x00, 0x12]], oracle := { blank.oracle with xport := [0x77], draws := 2 } } :=
  ⟨rfl, rfl, rfl, rfl⟩

/-- The delays (44 R217, R218). -/
theorem test_delays :
    exec (.delayMs 240) blank = .next { blank with trace := [.delayMs 240] } ∧
    exec (.delayUs 10) blank = .next { blank with trace := [.delayUs 10] } := ⟨rfl, rfl⟩

/-- The timer events: `timer_valid` is not the event's to write (44 R219 to R221, R223). -/
theorem test_timer :
    exec .timerCreate { blank with oracle := { blank.oracle with timerCreate := [true] } } =
      .next { blank with trace := [.timerCreate true], oracle := { blank.oracle with draws := 1 } } ∧
    exec (.timerArm 100) blank = .next { blank with trace := [.timerArm 100] } ∧
    exec .timerQuery { blank with oracle := { blank.oracle with timer := [7, 2, 0] } } =
      .next
        { blank with
          trace := [.timerQuery 7], oracle := { blank.oracle with timer := [2, 0], draws := 1 }
          sampled := { Sampled.none with rem := some 7 } } := ⟨rfl, rfl, rfl⟩

/-- V8: the kinds of line in the last pass: `pos = -2` is a sentinel, `T0`, then `N1`. -/
theorem test_scan_kinds :
    fetch (inClear (.scan .clear .one 1 (-2) 0)) = .run sentinelLine (inClear (.scan .clear .one 1 (-2) 0)) ∧
    fetch (inClear (.scan .clear .one 1 0 0)) = .run (terminatorLine 0) (inClear (.scan .clear .one 1 0 0)) ∧
    fetch (inClear (.scan .clear .one 1 0 1)) =
      .run (.lineData (.row 1) none 0xff .inverse 0x00) (inClear (.scan .clear .one 1 0 1)) := ⟨rfl, rfl, rfl⟩

/-- V8: the window counts. -/
theorem test_scanLineCount :
    scanLineCount 96 ⟨2, 2, 4⟩ = 400 ∧ scanLineCount 96 ⟨1, 3, 5⟩ = 165 ∧ scanLineCount 176 ⟨2, 8, 64⟩ = 3840 := by decide

/-! ## Invariants of small states, for the witnesses -/

theorem opened_handleOk (c : SizeClass) : (opened c).HandleOk := by
  refine ⟨(by decide : cfg.ok = true), rfl, rfl, ?_, ?_, nofun, rfl, rfl, nofun⟩ <;> (intro p h; cases h; rfl)

theorem tempered_handleOk : tempered.HandleOk := by
  refine ⟨by decide, rfl, rfl, ?_, ?_, nofun, rfl, rfl, ?_⟩
  · intro p h; cases h; rfl
  · intro p h; cases h; rfl
  · intro c h; cases h; exact ⟨_, _, rfl, rfl, rfl⟩

theorem reset_inv : State.reset.Inv where
  memory := ⟨rfl, rfl⟩
  handle := ⟨Config.platform.ok, rfl, rfl, nofun, nofun, nofun, rfl, rfl, nofun⟩
  running h := absurd rfl h
  phase := ⟨rfl, .inl rfl, rfl, nofun⟩
  sampled := by simp [State.SampledOk, State.reset]
  line := ⟨fun h => absurd rfl h, nofun⟩

/-- BEGIN at its first pin write. -/
theorem inBegin_pins_inv : (inBegin (.puPins 0) .poweringUp).Inv where
  memory := ⟨rfl, rfl⟩
  handle := { opened_handleOk .s200 with }
  running _ := rfl
  phase := ⟨by decide, ⟨rfl, rfl, rfl, rfl⟩, fun h => absurd h (by decide)⟩
  sampled := rfl
  line := ⟨fun h => absurd rfl h, nofun⟩

/-- BEGIN at its first identity read. -/
theorem inBegin_id_inv : (inBegin (.vfId false) .verifying).Inv where
  memory := ⟨rfl, rfl⟩
  handle := { opened_handleOk .s200 with }
  running _ := rfl
  phase := ⟨⟨rfl, rfl, rfl, rfl⟩, rfl⟩
  sampled := rfl
  line := ⟨fun h => absurd rfl h, nofun⟩

/-- CLEAR at the arming of its first timed pass. -/
theorem inClear_arm_inv : (inClear (.passArm .clear 1 .first)).Inv where
  memory := ⟨rfl, rfl⟩
  handle := { tempered_handleOk with }
  running _ := rfl
  phase := ⟨⟨rfl, nofun, .inl rfl, nofun, rfl⟩, rfl, comp1, rfl, by decide, by decide⟩
  sampled := rfl
  line := ⟨fun h => absurd rfl h, nofun⟩

/-- A refused command: CLOSE without a handle. -/
theorem blank_close_inv : ({ blank with hostQ := [⟨0b001, .none⟩] } : State).Inv where
  memory := ⟨rfl, rfl⟩
  handle := ⟨by decide, rfl, rfl, nofun, nofun, nofun, rfl, rfl, nofun⟩
  running h := absurd rfl h
  phase := ⟨rfl, .inl rfl, rfl, nofun⟩
  sampled := rfl
  line := ⟨fun h => absurd rfl h, nofun⟩

/-! ## Witnesses: for each statement with hypotheses, concrete values that meet all of them, clause by clause -/

/-- A state with one host word queued. -/
def withWord (s : State) (w : HostWord) : State := { s with hostQ := [w] }
/-- A state with answers for OPEN. -/
def withOpenAnswers (s : State) (timer buffer : List Bool) : State :=
  { s with oracle := { s.oracle with timerCreate := timer, bufferAlloc := buffer } }
/-- PAINT on S200 at a place of its pseudocode. -/
def inScan (op : FrameOp) (stage : Stage) (n : Nat) (w : Int) (offset : Nat) : State := inClear (.scan op stage n w offset)

theorem witness_DecodeEncodeAgree :
    wellFormed (.lineData (.row 96) (some (List.replicate 25 0xff)) 0x00 .inverse 0x00) = true ∧
    wellFormed (.channelSelect (List.replicate 9 0x00)) = true ∧
    decode (.event .delayMs [.nat 1]) = .ok (.delayMs 1) := ⟨by decide, by decide, rfl⟩

theorem witness_StepRunsDecodedInstruction :
    ((withWord blank ⟨0b001, .none⟩).Quiet ∧ (withWord blank ⟨0b001, .none⟩).hostQ = [⟨0b001, .none⟩] ∧
      decode (.host ⟨0b001, .none⟩) = .ok .close ∧ exec .close blank = .refused .noHandle) ∧
    (∃ t, exec .close tempered = .next t ∧ t.Quiet) ∧ (∃ t, exec .begin tempered = .next t ∧ ¬ t.Quiet) ∧
    (¬ (inBegin .puBusy .poweringUp).Quiet ∧
      fetch (inBegin .puBusy .poweringUp) = .run (.gpioRead .busy) (inBegin .puBusy .poweringUp)) ∧
    (blank.Quiet ∧ blank.hostQ = []) :=
  ⟨⟨⟨rfl, rfl⟩, rfl, rfl, rfl⟩, ⟨_, rfl, rfl, rfl⟩, ⟨_, rfl, fun h => nomatch h.1⟩, ⟨fun h => (nomatch h.1), rfl⟩, ⟨rfl, rfl⟩, rfl⟩

theorem witness_TableWordRunsNext :
    (decodeTableWord 8 0 = some (.openPanel 0) ∧ decodeTableWord 8 1 = some .close ∧ decodeTableWord 8 4 = some .begin) ∧
    (∃ t, exec .close { tempered with ctl := .idle, line := none } = .next t ∧ t.Quiet) ∧
    (∃ t, exec .begin { tempered with ctl := .idle, line := none } = .next t ∧ ¬ t.Quiet) ∧
    exec .close { blank with ctl := .idle, line := none } = .refused .noHandle :=
  ⟨by decide, ⟨_, rfl, rfl, rfl⟩, ⟨_, rfl, fun h => nomatch h.1⟩, rfl⟩

theorem witness_StepKeepsInvariant :
    (State.reset.Inv ∧ step State.reset = .next State.reset) ∧
    ((inBegin (.vfId false) .verifying).Inv ∧ ∃ t, step (inBegin (.vfId false) .verifying) = .next t) :=
  ⟨⟨reset_inv, rfl⟩, inBegin_id_inv, _, rfl⟩

theorem witness_OnlyTheHostIsRefused :
    ((inBegin (.puPins 0) .poweringUp).Inv ∧ ∃ t, step (inBegin (.puPins 0) .poweringUp) = .next t) ∧
    ((withWord blank ⟨0b001, .none⟩).Inv ∧ step (withWord blank ⟨0b001, .none⟩) = .refused .noHandle) :=
  ⟨⟨inBegin_pins_inv, _, rfl⟩, blank_close_inv, rfl⟩

theorem witness_InterfaceUsedWhenEnabled :
    ((inBegin (.vfId false) .verifying).Inv ∧
      fetch (inBegin (.vfId false) .verifying) = .run .readId (inBegin (.vfId false) .verifying) ∧
      usesTransport .readId = true) ∧
    ((inBegin (.puPins 0) .poweringUp).Inv ∧
      fetch (inBegin (.puPins 0) .poweringUp) = .run (.gpioWrite .reset false) (inBegin (.puPins 0) .poweringUp)) ∧
    ((inClear (.passArm .clear 1 .first)).Inv ∧
      fetch (inClear (.passArm .clear 1 .first)) = .run (.timerArm 100) (inClear (.passArm .clear 1 .first))) :=
  ⟨⟨inBegin_id_inv, rfl, rfl⟩, ⟨inBegin_pins_inv, rfl⟩, inClear_arm_inv, rfl⟩

theorem witness_OneEventPerStep :
    (¬ (inBegin (.puPins 0) .poweringUp).Quiet ∧ ∃ t, step (inBegin (.puPins 0) .poweringUp) = .next t) ∧
    ((withWord (opened .s200) ⟨0b100, .none⟩).Quiet ∧ decode (.host ⟨0b100, .none⟩) = .ok .begin ∧
      ∃ t, step (withWord (opened .s200) ⟨0b100, .none⟩) = .next t ∧ t.trace = [.gpioWrite .reset false]) ∧
    (∃ t, step (withOpenAnswers (withWord blank ⟨0b000, .selector 1⟩) [true] [true]) = .next t ∧
      t.trace = [.timerCreate true]) ∧
    (∃ t, step (withWord tempered ⟨0b001, .none⟩) = .next t) ∧
    (blank.Quiet ∧ blank.hostQ = [] ∧ ∃ t, step blank = .next t) :=
  ⟨⟨(fun h => nomatch h.1), _, rfl⟩, ⟨⟨rfl, rfl⟩, rfl, _, rfl, rfl⟩, ⟨_, rfl, rfl⟩, ⟨_, rfl⟩, ⟨rfl, rfl⟩, rfl, _, rfl⟩

theorem witness_ResolveTable : (3 : Nat) ≤ 3 ∧ resolve cfg 3 = none := ⟨Nat.le_refl _, rfl⟩

theorem witness_DerivedCountsConsistent :
    resolve cfg 0 = some (profileOf cfg .s144) ∧ resolve cfg 1 = some (profileOf cfg .s200) ∧
    resolve cfg 2 = some (profileOf cfg .s270) := ⟨rfl, rfl, rfl⟩

theorem witness_OpenCreatesHandle :
    ((opened .s200).Quiet ∧ (opened .s200).handleValid = true) ∧
    (blank.Quiet ∧ blank.handleValid = false ∧ resolve blank.cfg 3 = none ∧
      resolve blank.cfg 2 = some (profileOf cfg .s270)) ∧
    (withOpenAnswers blank [false] []).oracle.askTimerCreate = false ∧
    ((withOpenAnswers blank [true] [false]).oracle.askTimerCreate = true ∧
      (withOpenAnswers blank [true] [false]).oracle.afterTimerCreate.askBuffer = false) ∧
    ((withOpenAnswers blank [true] [true]).oracle.askTimerCreate = true ∧
      (withOpenAnswers blank [true] [true]).oracle.afterTimerCreate.askBuffer = true) :=
  ⟨⟨⟨rfl, rfl⟩, rfl⟩, ⟨⟨rfl, rfl⟩, rfl, rfl, rfl⟩, rfl, ⟨rfl, rfl⟩, rfl, rfl⟩

theorem witness_CloseDestroysHandle :
    (blank.Quiet ∧ blank.handleValid = false) ∧ (tempered.Quiet ∧ tempered.handleValid = true) :=
  ⟨⟨⟨rfl, rfl⟩, rfl⟩, ⟨rfl, rfl⟩, rfl⟩

theorem witness_SetTemperatureSelectsBand :
    (blank.Quiet ∧ blank.handleValid = false) ∧
    ((opened .s200).Quiet ∧ (opened .s200).handleValid = true ∧ (opened .s200).profile = some (profileOf cfg .s200)) ∧
    ((9 : Int) < 10 ∧ (10 : Int) ≤ 10 ∧ (10 : Int) ≤ 40 ∧ (10 : Int) ≤ 40 ∧ (40 : Int) ≤ 40 ∧ (40 : Int) < 41) ∧
    (((profileOf cfg .s200).sizeClass, (1 : Band), comp1) = (.s200, 1, cfg.comp.s200.band1) ∧
      ((profileOf cfg .s270).sizeClass, (2 : Band), compAny) = (.s270, 2, cfg.comp.s270.band2) ∧ comp1 ≠ compAny) :=
  ⟨⟨⟨rfl, rfl⟩, rfl⟩, ⟨⟨rfl, rfl⟩, rfl, rfl⟩, by decide, rfl, rfl, by decide⟩

theorem witness_SetTemperatureIdempotent :
    (∃ t, exec (.setTemperature 10) (opened .s200) = .next t) ∧ bandOf 10 = bandOf 40 ∧
    (∃ u, exec (.setTemperature 40) (opened .s200) = .next u) := ⟨⟨_, rfl⟩, by decide, _, rfl⟩

theorem witness_StatusReadsFlag :
    (blank.Quiet ∧ blank.handleValid = false) ∧
    (({ opened .s200 with status := some .dcFailed } : State).Quiet ∧
      ({ opened .s200 with status := some .dcFailed } : State).handleValid = true ∧
      ({ opened .s200 with status := some .dcFailed } : State).status = some .dcFailed) ∧
    ((opened .s200).Quiet ∧ (opened .s200).handleValid = true ∧ (opened .s200).status = none) ∧
    ({ State.reset.oracle with status := [.panelBroken] } : Oracle).status = [.panelBroken] :=
  ⟨⟨⟨rfl, rfl⟩, rfl⟩, ⟨⟨rfl, rfl⟩, rfl, rfl⟩, ⟨⟨rfl, rfl⟩, rfl, rfl⟩, rfl⟩

theorem witness_HostCommandRefusals :
    (isHostCommand .begin = true ∧ (∀ sel, Instr.begin ≠ .openPanel sel) ∧ blank.Quiet ∧ blank.handleValid = false) ∧
    ((opened .s200).Quiet ∧ (opened .s200).handleValid = true ∧ (opened .s200).compValid = false) ∧
    (tempered.Quiet ∧ tempered.handleValid = true ∧ tempered.compValid = true ∧ tempered.comp = some comp1 ∧
      comp1.ok = true ∧ tempered.profile = some (profileOf cfg .s200) ∧
      ([] : List Byte).length ≠ (profileOf cfg .s200).bytesPerLine * (profileOf cfg .s200).linesPerDisplay) ∧
    ((inBegin .puBusy .poweringUp).ctl ≠ .idle) :=
  ⟨⟨rfl, nofun, ⟨rfl, rfl⟩, rfl⟩, ⟨⟨rfl, rfl⟩, rfl, rfl⟩, ⟨⟨rfl, rfl⟩, rfl, rfl, rfl, rfl, rfl, by decide⟩, nofun⟩

theorem witness_PowerCommandsIssued :
    ((opened .s270).Quiet ∧ (opened .s270).handleValid = true) ∧
    ((withWord (opened .s270) ⟨0b100, .none⟩).hostQ = [⟨0b100, .none⟩] ∧ decode (.host ⟨0b100, .none⟩) = .ok .begin) ∧
    ((withWord (opened .s270) ⟨0b101, .none⟩).hostQ = [⟨0b101, .none⟩] ∧ decode (.host ⟨0b101, .none⟩) = .ok .endPower ∧
      (opened .s270).profile = some (profileOf cfg .s270) ∧ (profileOf cfg .s270).sizeClass = .s270) ∧
    ((opened .s144).profile = some (profileOf cfg .s144) ∧ (profileOf cfg .s144).sizeClass ≠ .s270 ∧
      payloadLength (profileOf cfg .s144) ≤ (opened .s144).lbSize) :=
  ⟨⟨⟨rfl, rfl⟩, rfl⟩, ⟨rfl, rfl⟩, ⟨rfl, rfl, rfl, rfl⟩, rfl, by decide, by decide⟩

theorem witness_PinSequenceOfPoweringUp :
    (inBegin (.puPins 0) .poweringUp).ctl = .puPins 0 ∧ (inBegin (.puPins 0) .poweringUp).line = none := ⟨rfl, rfl⟩

theorem witness_BusyPollHasNoBound :
    ((inBegin .puBusy .poweringUp).ctl = .puBusy ∧ (inBegin .puBusy .poweringUp).line = none) ∧
    ({ State.reset.oracle with busy := [true, true, false] } : Oracle).busy = List.replicate 2 true ++ [false] ∧
    ({ State.reset.oracle with busy := [false] } : Oracle).busy = List.replicate 0 true ++ [false] := ⟨⟨rfl, rfl⟩, rfl, rfl⟩

theorem witness_IdentityCheck :
    ((inBegin (.vfId false) .verifying).ctl = .vfId false ∧ (inBegin (.vfId false) .verifying).line = none) ∧
    ((cogAnswers [0xff, 0xf2]).askCog = 0xff ∧ (cogAnswers [0xff, 0xf2]).afterCog.askCog = 0xf2 ∧
      (0xf2 : Byte) &&& 0x0f = 0x02) ∧
    ((cogAnswers [0x12, 0x03]).afterCog.askCog = 0x03 ∧ (0x03 : Byte) &&& 0x0f ≠ 0x02) :=
  ⟨⟨rfl, rfl⟩, ⟨rfl, rfl, by decide⟩, rfl, by decide⟩

theorem witness_BreakageCheck :
    ((inBegin (.vfBreakage 0) .verifying).ctl = .vfBreakage 0 ∧ (inBegin (.vfBreakage 0) .verifying).line = none) ∧
    ((cogAnswers [0x80]).askCog = 0x80 ∧ (0x80 : Byte) &&& cfg.breakageMask ≠ 0) ∧
    ((cogAnswers [0x7f]).askCog = 0x7f ∧ (0x7f : Byte) &&& cfg.breakageMask = 0) :=
  ⟨⟨rfl, rfl⟩, ⟨rfl, by decide⟩, rfl, by decide⟩

theorem witness_RegisterSetUp :
    (inBegin (.vfInit 0) .verifying).ctl = .vfInit 0 ∧ (inBegin (.vfInit 0) .verifying).line = none ∧
    (inBegin (.vfInit 0) .verifying).profile = some (profileOf cfg .s200) := ⟨rfl, rfl, rfl⟩

theorem witness_ChargePumpAttempt :
    ((inBegin (.vfPump 4 0) .verifying).ctl = .vfPump 4 0 ∧ (inBegin (.vfPump 4 0) .verifying).line = none) ∧
    ((1 : Nat) ≤ 1 ∧ (1 : Nat) ≤ 4 ∧ (4 : Nat) ≤ 4 ∧ (3 : Nat) < 4) ∧
    ((cogAnswers [0x40]).askCog = 0x40 ∧ (0x40 : Byte) &&& cfg.dcdcMask ≠ 0) ∧
    ((cogAnswers [0xbf]).askCog = 0xbf ∧ (0xbf : Byte) &&& cfg.dcdcMask = 0) :=
  ⟨⟨rfl, rfl⟩, by decide, ⟨rfl, by decide⟩, rfl, by decide⟩

/-- A good panel's answers (95_test_vectors.md P1). -/
def goodPanel : State :=
  { withWord (opened .s200) ⟨0b100, .none⟩ with oracle := { cogAnswers [0x12, 0x12, 0x80, 0x40] with busy := [false] } }

theorem witness_BeginOnGoodPanel :
    (goodPanel.Quiet ∧ goodPanel.handleValid = true ∧ goodPanel.profile = some (profileOf cfg .s200) ∧
      goodPanel.hostQ = [⟨0b100, .none⟩] ∧ decode (.host ⟨0b100, .none⟩) = .ok .begin) ∧
    (goodPanel.oracle.askBusy = false ∧ goodPanel.oracle.afterBusy.askCog = 0x12 ∧
      goodPanel.oracle.afterBusy.afterCog.askCog = 0x12 ∧ goodPanel.oracle.afterBusy.afterCog.afterCog.askCog = 0x80 ∧
      goodPanel.oracle.afterBusy.afterCog.afterCog.afterCog.askCog = 0x40) ∧
    ((0x12 : Byte) &&& 0x0f = 0x02 ∧ (0x80 : Byte) &&& goodPanel.cfg.breakageMask ≠ 0 ∧
      (0x40 : Byte) &&& goodPanel.cfg.dcdcMask ≠ 0) :=
  ⟨⟨⟨rfl, rfl⟩, rfl, rfl, rfl, rfl⟩, ⟨rfl, rfl, rfl, rfl, rfl⟩, by decide, by decide, by decide⟩

theorem witness_VisualFlush :
    ((inEnd .s270 (.pdFlush 0)).ctl = .pdFlush 0 ∧ (inEnd .s270 (.pdFlush 0)).line = none ∧
      (inEnd .s270 (.pdFlush 0)).profile = some (profileOf cfg .s270) ∧
      (inEnd .s270 (.pdFlush 0)).lbSize = scratchSize (profileOf cfg .s270) ∧ (profileOf cfg .s270).sizeClass = .s270) ∧
    ((inEnd .s200 (.pdFlush 0)).ctl = .pdFlush 0 ∧ (inEnd .s200 (.pdFlush 0)).line = none ∧
      (inEnd .s200 (.pdFlush 0)).profile = some (profileOf cfg .s200) ∧
      (inEnd .s200 (.pdFlush 0)).lbSize = scratchSize (profileOf cfg .s200) ∧ (profileOf cfg .s200).sizeClass ≠ .s270) :=
  ⟨⟨rfl, rfl, rfl, rfl, rfl⟩, rfl, rfl, rfl, rfl, by decide⟩

theorem witness_PowerDownRecheck :
    ((inEnd .s200 (.pdCheck 0)).ctl = .pdCheck 0 ∧ (inEnd .s200 (.pdCheck 0)).line = none) ∧
    ((cogAnswers [0x40]).askCog = 0x40 ∧ (0x40 : Byte) &&& cfg.dcdcMask ≠ 0) ∧
    ((cogAnswers [0x00]).askCog = 0x00 ∧ (0x00 : Byte) &&& cfg.dcdcMask = 0) :=
  ⟨⟨rfl, rfl⟩, ⟨rfl, by decide⟩, rfl, by decide⟩

theorem witness_PowerDownRegisters :
    (inEnd .s200 (.pdRegs 0)).ctl = .pdRegs 0 ∧ (inEnd .s200 (.pdRegs 0)).line = none := ⟨rfl, rfl⟩

theorem witness_PowerDownFinalPart :
    (inEnd .s200 (.pdFinal 0)).ctl = .pdFinal 0 ∧ (inEnd .s200 (.pdFinal 0)).line = none := ⟨rfl, rfl⟩

theorem witness_PoweringDownAlwaysEnds :
    ((inEnd .s144 (.pdFlush 0)).HandleOk ∧ (inEnd .s144 (.pdFlush 0)).ctl = .pdFlush 0 ∧
      (inEnd .s144 (.pdFlush 0)).line = none ∧ (inEnd .s144 (.pdFlush 0)).profile = some (profileOf cfg .s144)) ∧
    (cogAnswers [0x00]).askCog = 0x00 ∧ (cogAnswers [0x40]).askCog = 0x40 :=
  ⟨⟨{ opened_handleOk .s144 with }, rfl, rfl, rfl⟩, rfl, rfl⟩

theorem witness_FrameCommandsIssued :
    (tempered.Quiet ∧ tempered.handleValid = true ∧ tempered.profile = some (profileOf cfg .s200) ∧
      tempered.compValid = true ∧ tempered.comp = some comp1 ∧ comp1.ok = true) ∧
    (List.replicate 2400 (0xff : Byte)).length = (profileOf cfg .s200).bytesPerLine * (profileOf cfg .s200).linesPerDisplay ∧
    ((withWord tempered ⟨0b110, .none⟩).hostQ = [⟨0b110, .none⟩] ∧ decode (.host ⟨0b110, .none⟩) = .ok .clear ∧
      payloadLength (profileOf cfg .s200) ≤ tempered.lbSize) ∧
    (({ tempered with comp := some (profile9 1 0 0 0 0 0 1 1 1) } : State).Quiet ∧
      (profile9 1 0 0 0 0 0 1 1 1).stage1Step = 0 ∧
      (profile9 1 1 1 0 0 0 1 2 1).stage3Block < (profile9 1 1 1 0 0 0 1 2 1).stage3Step) :=
  ⟨⟨⟨rfl, rfl⟩, rfl, rfl, rfl, rfl, rfl⟩, by rw [List.length_replicate]; rfl, ⟨rfl, rfl, by decide⟩, ⟨rfl, rfl⟩, rfl, by decide⟩

theorem witness_ScanLineKinds :
    ((inScan .clear .one 1 (-2) 0).ctl = .scan .clear .one 1 (-2) 0 ∧ (inScan .clear .one 1 (-2) 0).line = none ∧
      (inScan .clear .one 1 (-2) 0).profile = some (profileOf cfg .s200) ∧ (inScan .clear .one 1 (-2) 0).comp = some comp1) ∧
    ((-2 : Int) + (1 : Nat) < 0 ∧ ((profileOf cfg .s200).linesPerDisplay : Int) < 96 + (1 : Nat)) ∧
    ((-2 : Int) + (2 : Nat) = (0 : Nat) ∧ (96 : Int) + (0 : Nat) = (96 : Nat) ∧ 96 ≤ (profileOf cfg .s200).linesPerDisplay) ∧
    ((0 = 0 ∧ 1 + 1 = comp1.stage1Repeat) ∧ ¬ (0 = 0 ∧ 0 + 1 = comp1.stage1Repeat) ∧
      ¬ (1 = 0 ∧ 1 + 1 = comp1.stage3Repeat)) :=
  ⟨⟨rfl, rfl, rfl, rfl⟩, by decide, by decide, by decide⟩

theorem witness_ImageRowOfNominalLine :
    (95 < (profileOf cfg .s200).linesPerDisplay ∧
      (List.replicate 25 (0x1b : Byte)).length = (profileOf cfg .s200).bytesPerLine ∧
      ∀ b (h : b < (List.replicate 25 (0x1b : Byte)).length),
        Memory.read (Memory.writeList [] (95 * (profileOf cfg .s200).bytesPerLine) (List.replicate 25 0x1b))
          (95 * (profileOf cfg .s200).bytesPerLine + b) = some (List.replicate 25 (0x1b : Byte))[b]) ∧
    (96 = (profileOf cfg .s200).linesPerDisplay ∧
      ({ State.reset.oracle with rowL := List.replicate 26 0xff } : Oracle).rowL = List.replicate 25 0xff ++ [0xff] ∧
      (List.replicate 25 (0xff : Byte)).length = (profileOf cfg .s200).bytesPerLine) :=
  ⟨⟨by decide, by decide, fun _ h => Memory.read_writeList_inside [] _ _ h⟩, by decide, by decide, by decide⟩

theorem witness_ScanLineLeadsToNext :
    (({ inScan .clear .one 1 96 3 with line := some .disable } : State).ctl = .scan .clear .one 1 96 3 ∧
      ({ inScan .clear .one 1 96 3 with line := some .disable } : State).line = some .disable ∧
      (inScan .clear .one 1 96 3).profile = some (profileOf cfg .s200) ∧ (inScan .clear .one 1 96 3).comp = some comp1 ∧
      comp1.stage1Repeat = 2 ∧ comp1.stage1Step = 2 ∧ comp1.stage1Block = 4) ∧
    (2 + 1 < 4 ∧ (94 : Int) + (2 : Nat) ≤ (96 : Nat) ∧ ((96 : Nat) : Int) < 96 + (2 : Nat) ∧ 0 + 1 < 2 ∧ 2 ≤ 1 + 1) ∧
    scanNext 96 ⟨2, 2, 4⟩ ⟨0, 96, 3⟩ = some ⟨1, -2, 0⟩ ∧ scanNext 96 ⟨2, 2, 4⟩ ⟨1, 96, 3⟩ = none ∧
    1 ≤ comp1.stage2Repeat ∧ compAny.stage2Repeat = 0 ∧ scanNext 96 ⟨1, 1, 1⟩ ⟨0, 96, 0⟩ = none :=
  ⟨⟨rfl, rfl, rfl, rfl, rfl, rfl, rfl⟩, by decide, by decide, by decide, by decide, by decide, by decide⟩

theorem witness_ScanLineCount : ScanShape.Ok ⟨1, 1, 1⟩ ∧ ScanShape.Ok ⟨2, 8, 64⟩ :=
  ⟨⟨by decide, by decide, by decide⟩, by decide, by decide, by decide⟩

theorem witness_ScanVisitsEveryRow : ScanShape.Ok ⟨1, 4, 4⟩ ∧ 0 < 96 ∧ 95 < 96 :=
  ⟨⟨by decide, by decide, by decide⟩, by decide, by decide⟩

/-- CLEAR at the first place of a block-scan stage. -/
theorem inScan_start_inv (stage : Stage) : (inScan .clear stage 0 (-2) 0).Inv where
  memory := ⟨rfl, rfl⟩
  handle := { tempered_handleOk with }
  running _ := rfl
  phase := by
    refine ⟨⟨rfl, nofun, .inl rfl, nofun, rfl⟩, profileOf cfg .s200, comp1, rfl, rfl, ?_⟩
    cases stage <;> exact ⟨by decide, ⟨0, rfl⟩, by decide, by decide⟩
  sampled := rfl
  line := ⟨fun h => absurd rfl h, nofun⟩

theorem witness_ScanStageRuns :
    ((inScan .clear .one 0 (-2) 0).Inv ∧ (inScan .clear .one 0 (-2) 0).line = none ∧
      (inScan .clear .one 0 (-2) 0).profile = some (profileOf cfg .s200) ∧ (inScan .clear .one 0 (-2) 0).comp = some comp1 ∧
      (⟨2, 2, 4⟩ : ScanShape) = ⟨comp1.stage1Repeat, comp1.stage1Step, comp1.stage1Block⟩ ∧
      (inScan .clear .one 0 (-2) 0).ctl = .scan .clear .one 0 (((2 : Nat) : Int) - (4 : Nat)) 0) ∧
    ((inScan .clear .three 0 (-2) 0).Inv ∧ (inScan .clear .three 0 (-2) 0).ctl = .scan .clear .three 0 (-2) 0) ∧
    (1 ≤ comp1.stage2Repeat ∧ compAny.stage2Repeat = 0 ∧ compAny.ok = true) :=
  ⟨⟨inScan_start_inv _, rfl, rfl, rfl, rfl, rfl⟩, ⟨inScan_start_inv _, rfl⟩, by decide⟩

theorem witness_TimedPassSteps :
    ((inClear (.passArm .clear 1 .first)).line = none ∧ (inClear (.passArm .clear 1 .first)).profile = some (profileOf cfg .s200) ∧
      (inClear (.passArm .clear 1 .first)).comp = some comp1 ∧
      (inClear (.passArm .clear 1 .first)).ctl = .passArm .clear 1 .first) ∧
    (inClear (.passRow .clear 1 .second 95)).ctl = .passRow .clear 1 .second 95 ∧
    (94 + 1 < (profileOf cfg .s200).linesPerDisplay ∧ (profileOf cfg .s200).linesPerDisplay ≤ 95 + 1) ∧
    (inClear (.passQuery .clear 1 .second)).ctl = .passQuery .clear 1 .second ∧
    (({ State.reset.oracle with timer := [1] } : Oracle).askTimer ≠ 0 ∧
      ({ State.reset.oracle with timer := [0] } : Oracle).askTimer = 0) ∧
    (comp1.stage2Repeat ≤ 1 ∧ 1 < (profile9 1 1 1 2 0 0 1 1 1).stage2Repeat) :=
  ⟨⟨rfl, rfl, rfl, rfl⟩, rfl, by decide, rfl, ⟨nofun, rfl⟩, by decide⟩

theorem witness_LineDataFillsBuffer :
    (tempered.profile = some (profileOf cfg .s200) ∧ payloadLength (profileOf cfg .s200) ≤ tempered.lbSize) ∧
    (List.replicate 24 (0x00 : Byte)).length ≠ (profileOf cfg .s200).bytesPerLine ∧
    (∀ d, some (List.replicate 25 (0xff : Byte)) = some d → d.length = (profileOf cfg .s200).bytesPerLine) := by
  refine ⟨⟨rfl, by decide⟩, by decide, ?_⟩
  intro d h
  cases h
  decide

theorem witness_LineIsFourEvents :
    tempered.profile = some (profileOf cfg .s200) ∧
    ∃ t1, exec (.lineData (.row 0) none 0xff .inverse 0x00) tempered = .next t1 := ⟨rfl, _, rfl⟩

theorem witness_PayloadLayout :
    (∀ d, (none : Option (List Byte)) = some d → d.length = (profileOf cfg .s200).bytesPerLine) ∧
    (∀ d, some (List.replicate 25 (0x00 : Byte)) = some d → d.length = (profileOf cfg .s200).bytesPerLine) ∧
    24 < (profileOf cfg .s200).bytesPerLine ∧ 23 < (profileOf cfg .s200).bytesPerScan := by
  refine ⟨nofun, ?_, by decide, by decide⟩
  intro d h
  cases h
  decide

theorem witness_ScanSelectsOneRow : 0 < 4 * 24 ∧ 95 < 4 * 24 ∧ (4 * 24 - 95 - 1) / 4 = 0 := by decide

theorem witness_ScanOutsideThePanel : 1 ≤ 24 := by decide

theorem witness_CogReadCommands :
    (cogAnswers [0x12]).cog = [0x12] ∧ (inBegin (.vfId false) .verifying).ctl = .vfId false ∧
    (inBegin (.vfId true) .verifying).ctl ≠ .vfId false := ⟨rfl, rfl, by decide⟩

theorem witness_GpioEvents :
    ({ State.reset.oracle with busy := [true] } : Oracle).busy = [true] ∧ OutPin.border ≠ .reset ∧ Pin.border ≠ .busy :=
  ⟨rfl, by decide, by decide⟩

theorem witness_TransportEvents :
    ({ State.reset.oracle with xport := [0x01, 0x02, 0x03] } : Oracle).xport = [0x01, 0x02] ++ [0x03] ∧
    ([0x01, 0x02] : List Byte).length = 2 := ⟨rfl, rfl⟩

theorem witness_DelayAndTimerEvents :
    ({ State.reset.oracle with timerCreate := [false] } : Oracle).timerCreate = [false] ∧
    ({ State.reset.oracle with timer := [0] } : Oracle).timer = [0] := ⟨rfl, rfl⟩

theorem witness_EventFrame :
    isHostCommand (.gpioWrite .border true) = false ∧ (∃ t, exec (.gpioWrite .border true) blank = .next t) ∧
    (∃ t, exec .xportEnable blank = .next t) ∧ (∃ t, exec .timerQuery blank = .next t) := ⟨rfl, ⟨_, rfl⟩, ⟨_, rfl⟩, _, rfl⟩

theorem witness_MemoryFrame :
    (∃ t, exec .begin tempered = .next t) ∧
    ((∃ t, exec (.lineData .noRow none 0x00 .normal 0x00) tempered = .next t) ∧
      tempered.profile = some (profileOf cfg .s200) ∧ payloadLength (profileOf cfg .s200) ≤ 76) :=
  ⟨⟨_, rfl⟩, ⟨_, rfl⟩, rfl, by decide⟩

theorem witness_ImageAndConfigUntouched :
    (∃ t, step (inBegin (.puPins 0) .poweringUp) = .next t) ∧
    (∃ image t, step (withWord tempered ⟨0b111, .image image⟩) = .next t ∧
      t.img ≠ (withWord tempered ⟨0b111, .image image⟩).img) := by
  refine ⟨⟨_, rfl⟩, ?_⟩
  obtain ⟨image, hlen⟩ : ∃ image : List Byte, image.length = 2400 := ⟨List.replicate 2400 0x5a, List.length_replicate⟩
  have he : exec (.paint image) tempered = .next { inScan .paint .one 0 (-2) 0 with img := Memory.ofList image } := by
    show (if image.length ≠ 2400 then Host.Outcome.refused _ else _) = _
    rw [if_neg (fun h => h hlen)]
    rfl
  have hs := step_host (s := withWord tempered ⟨0b111, .image image⟩) (i := .paint image) ⟨rfl, rfl⟩ rfl rfl
  have hw : ({ withWord tempered ⟨0b111, .image image⟩ with hostQ := [] } : State) = tempered := rfl
  rw [hw, he] at hs
  refine ⟨image, _, hs, ?_⟩
  intro h
  have h0 := Memory.read_ofList image (i := 0) (by omega)
  have h1 : Memory.ofList image = [] := h
  rw [h1] at h0
  cases h0

theorem witness_ProfileAndCompWriters :
    (∃ t, step (withOpenAnswers (withWord blank ⟨0b000, .selector 1⟩) [true] [true]) = .next t ∧ t.profile ≠ none) ∧
    (∃ t, step (withWord (opened .s200) ⟨0b010, .celsius 25⟩) = .next t ∧ t.comp ≠ none) := ⟨⟨_, rfl, nofun⟩, _, rfl, nofun⟩

theorem witness_StatusWriters :
    (∃ t, step (withWord (opened .s200) ⟨0b100, .none⟩) = .next t ∧ t.status ≠ none) ∧
    (∃ t, step { inBegin (.vfId true) .verifying with oracle := cogAnswers [0x15] } = .next t ∧ t.status ≠ some .ok) ∧
    (∃ t, step { inBegin (.rdFinish 1) .ready with status := none } = .next t ∧ t.status ≠ none) ∧
    (∃ t, step { inEnd .s200 (.pdCheck 1) with oracle := cogAnswers [0x00] } = .next t ∧ t.status ≠ some .ok) :=
  ⟨⟨_, rfl, nofun⟩, ⟨_, rfl, nofun⟩, ⟨_, rfl, nofun⟩, _, rfl, nofun⟩

theorem witness_PowerAndStatusGateNothing :
    (∃ t, step (inBegin (.puPins 0) .poweringUp) = .next t) ∧
    (∀ s1, fetch (inBegin (.puPins 0) .poweringUp) ≠ .run .status s1) := by
  refine ⟨⟨_, rfl⟩, ?_⟩
  intro s1 h
  have hf : fetch (inBegin (.puPins 0) .poweringUp) = .run (.gpioWrite .reset false) (inBegin (.puPins 0) .poweringUp) := rfl
  rw [hf] at h
  cases h

theorem witness_ChannelSelectOnlyInSetUp :
    fetch (inBegin (.vfInit 1) .verifying) = .run (.channelSelect chsel200) (inBegin (.vfInit 1) .verifying) := rfl

theorem witness_ChannelSelectVerbatimOnTheWire :
    chsel200.length = 9 ∧ ∃ t, exec (.channelSelect chsel200) blank = .next t := ⟨rfl, _, rfl⟩

end Sys2Proof.Tests
end

section
/-! SUPPORT. What each host command does when it answers a next state, what it starts and what it emits, and the step that takes it
off the queue. -/

namespace Sys2Proof.Machine

/-! ## The host commands that answer a next state -/

/-- The gate of the host commands but OPEN (30 R108), said by `Quiet`. -/
theorem withHandle_next_quiet {s t : State} {k : Result} :
    withHandle s k = .next t ↔ s.Quiet ∧ s.handleValid = true ∧ k = .next t := by
  rw [withHandle_next, quiet_iff]

/-- What OPEN does (40 R122). -/
theorem execOpen_next {sel : Nat} {s t : State} :
    execOpen sel s = .next t ↔ s.Quiet ∧ s.handleValid = false ∧
      ((resolve s.cfg sel = none ∧ t = { s with result := some .unsupportedSize }) ∨
        ∃ p, resolve s.cfg sel = some p ∧ t = openWith p s) := by
  rw [quiet_iff]
  unfold execOpen
  cases s.atIdle <;> cases s.handleValid <;> cases resolve s.cfg sel <;> simp [eq_comm]

/-- What CLOSE does (40 R123). -/
theorem execClose_next {s t : State} :
    execClose s = .next t ↔ s.Quiet ∧ s.handleValid = true ∧
      t = { s with
            handleValid := false, timerValid := false, compValid := false, profile := none, band := none, comp := none
            status := none, lbSize := 0, lb := [], result := none } := by
  rw [execClose, withHandle_next_quiet, Host.Outcome.next.injEq, eq_comm (b := t)]

/-- What SET_TEMPERATURE does (40 R127). -/
theorem execSetTemperature_next {celsius : Int} {s t : State} :
    execSetTemperature celsius s = .next t ↔ s.Quiet ∧ s.handleValid = true ∧ ∃ p, s.profile = some p ∧
      t = { s with
            band := some (bandOf celsius), comp := some (compOf s.cfg p.sizeClass (bandOf celsius)), compValid := true
            result := none } := by
  simp only [execSetTemperature, withHandle_next_quiet, withProfile_next, Host.Outcome.next.injEq, eq_comm (b := t)]

/-- What STATUS does (40 R124). -/
theorem execStatus_next {s t : State} :
    execStatus s = .next t ↔ s.Quiet ∧ s.handleValid = true ∧
      ((∃ v, s.status = some v ∧ t = { s with result := some (.status v) }) ∨
        (s.status = none ∧
          t = { s with result := some (.status s.oracle.askStatus), oracle := s.oracle.afterStatus })) := by
  rw [execStatus, withHandle_next_quiet]
  cases s.status <;> simp [eq_comm (b := t)]

/-- What BEGIN does before its first event (41 R140). -/
theorem execBegin_next {s t : State} :
    execBegin s = .next t ↔ s.Quiet ∧ s.handleValid = true ∧
      t = { s with status := some .ok, pwr := .poweringUp, ctl := .puPins 0, result := none } := by
  rw [execBegin, withHandle_next_quiet, Host.Outcome.next.injEq, eq_comm (b := t)]

/-- What END does before its first event (41 R150). -/
theorem execEnd_next {s t : State} :
    execEnd s = .next t ↔ s.Quiet ∧ s.handleValid = true ∧
      t = ({ s with status := some .ok, fromFailed := false, result := none } : State).enterPoweringDown := by
  rw [execEnd, withHandle_next_quiet, Host.Outcome.next.injEq, eq_comm (b := t)]

/-- What CLEAR does before its first event (42 R170). -/
theorem execClear_next {s t : State} :
    execClear s = .next t ↔ s.Quiet ∧ s.handleValid = true ∧ s.compValid = true ∧ ∃ c, s.comp = some c ∧ c.ok = true ∧
      t = { s with ctl := stageStart .clear c .one, result := none } := by
  simp only [execClear, withHandle_next_quiet, withSaneComp_next, Host.Outcome.next.injEq, eq_comm (b := t)]

/-- What PAINT does before its first event (42 R171). -/
theorem execPaint_next {image : List Byte} {s t : State} :
    execPaint image s = .next t ↔ s.Quiet ∧ s.handleValid = true ∧ s.compValid = true ∧ ∃ c, s.comp = some c ∧ c.ok = true ∧
      ∃ p, s.profile = some p ∧ image.length = imageLength p ∧
        t = { s with img := Memory.ofList image, ctl := stageStart .paint c .one, result := none } := by
  have hlen : ∀ (c : CompProfile) (p : PanelProfile),
      ((if image.length ≠ imageLength p then .refused .badImageLength
        else .next { s with img := Memory.ofList image, ctl := stageStart .paint c .one, result := none } : Result) = .next t ↔
        image.length = imageLength p ∧
          t = { s with img := Memory.ofList image, ctl := stageStart .paint c .one, result := none }) := by
    intro c p
    by_cases h : image.length = imageLength p <;> simp [h, eq_comm]
  simp only [execPaint, withHandle_next_quiet, withSaneComp_next, withProfile_next, hlen]

/-! ## What a host command starts and emits -/

@[simp] theorem openWith_ctl (p : PanelProfile) (s : State) : (openWith p s).ctl = s.ctl := by
  simp only [openWith]
  split_ifs <;> rfl

@[simp] theorem openWith_line (p : PanelProfile) (s : State) : (openWith p s).line = s.line := by
  simp only [openWith]
  split_ifs <;> rfl

/-- OPEN of a supported size asks for the timer, whatever comes of it (40 R122). -/
@[simp] theorem openWith_trace (p : PanelProfile) (s : State) :
    (openWith p s).trace = s.trace ++ [.timerCreate s.oracle.askTimerCreate] := by
  simp only [openWith]
  split_ifs <;> rfl

theorem not_quiet_of_ctl {s : State} (h : s.ctl ≠ .idle) : ¬ s.Quiet := fun hq => h hq.1

theorem stageStart_ne_idle (op : FrameOp) (c : CompProfile) (stage : Stage) : stageStart op c stage ≠ .idle := nofun

/-- BEGIN, END, CLEAR and PAINT start an operation and emit nothing of their own (41 R140, R150; 42 R170, R171). -/
theorem exec_starts_operation {i : Instr} {s u : State}
    (hi : i = .begin ∨ i = .endPower ∨ i = .clear ∨ ∃ image, i = .paint image) (h : exec i s = .next u) :
    ¬ u.Quiet ∧ u.trace = s.trace := by
  rcases hi with rfl | rfl | rfl | ⟨image, rfl⟩
  · obtain ⟨-, -, rfl⟩ := execBegin_next.1 h
    exact ⟨not_quiet_of_ctl nofun, rfl⟩
  · obtain ⟨-, -, rfl⟩ := execEnd_next.1 h
    exact ⟨not_quiet_of_ctl nofun, rfl⟩
  · obtain ⟨-, -, -, c, -, -, rfl⟩ := execClear_next.1 h
    exact ⟨not_quiet_of_ctl (stageStart_ne_idle _ _ _), rfl⟩
  · obtain ⟨-, -, -, c, -, -, p, -, -, rfl⟩ := execPaint_next.1 h
    exact ⟨not_quiet_of_ctl (stageStart_ne_idle _ _ _), rfl⟩

/-- CLOSE, SET_TEMPERATURE and STATUS start no operation and emit nothing (40 R123, R124, R127). -/
theorem exec_without_event {i : Instr} {s u : State} (hi : i = .close ∨ (∃ celsius, i = .setTemperature celsius) ∨ i = .status)
    (h : exec i s = .next u) : u.Quiet ∧ u.trace = s.trace := by
  rcases hi with rfl | ⟨celsius, rfl⟩ | rfl
  · obtain ⟨hq, -, rfl⟩ := execClose_next.1 h
    exact ⟨hq, rfl⟩
  · obtain ⟨hq, -, p, -, rfl⟩ := execSetTemperature_next.1 h
    exact ⟨hq, rfl⟩
  · obtain ⟨hq, -, ⟨v, -, rfl⟩ | ⟨-, rfl⟩⟩ := execStatus_next.1 h <;> exact ⟨hq, rfl⟩

/-- OPEN starts no operation; it emits one `TimerCreate`, or nothing where the size is unsupported (40 R122). -/
theorem execOpen_trace {sel : Nat} {s u : State} (h : execOpen sel s = .next u) :
    u.Quiet ∧ (u.trace = s.trace ∨ ∃ ok, u.trace = s.trace ++ [.timerCreate ok]) := by
  obtain ⟨hq, -, ⟨-, rfl⟩ | ⟨p, -, rfl⟩⟩ := execOpen_next.1 h
  · exact ⟨hq, .inl rfl⟩
  · exact ⟨⟨(openWith_ctl p s).trans hq.1, (openWith_line p s).trans hq.2⟩, .inr ⟨_, openWith_trace p s⟩⟩

/-! ## The step that takes a host command off the queue -/

section
variable {s t : State} {w : HostWord} {rest : List HostWord} {i : Instr}

/-- A command that starts no operation is the whole step. -/
theorem step_host_quiet (hq : s.Quiet) (hw : s.hostQ = w :: rest) (hd : decode (.host w) = .ok i)
    (he : exec i { s with hostQ := rest } = .next t) (ht : t.Quiet) : step s = .next t := by
  simp only [step_host hq hw hd, he, quiet_iff.1 ht, if_true]

/-- A command that starts an operation is followed by the operation's first event in the same step (00 R11; assumption 8). -/
theorem step_host_starts (hq : s.Quiet) (hw : s.hostQ = w :: rest) (hd : decode (.host w) = .ok i)
    (he : exec i { s with hostQ := rest } = .next t) (ht : ¬ t.Quiet) : step s = step t := by
  simp only [step_host hq hw hd, he, quiet_iff.not.1 ht, Bool.false_eq_true, if_false]

/-- A refusal of the command is the step's. -/
theorem step_host_refused {r : Refusal} (hq : s.Quiet) (hw : s.hostQ = w :: rest) (hd : decode (.host w) = .ok i)
    (he : exec i { s with hostQ := rest } = .refused r) : step s = .refused r := by
  simp only [step_host hq hw hd, he]

/-- A step that takes a command and answers a next state: `exec` of the command answered one, and it is the step's, or an
operation has started and the step is the step from there. -/
theorem step_host_next (hq : s.Quiet) (hw : s.hostQ = w :: rest) (hd : decode (.host w) = .ok i) (h : step s = .next t) :
    ∃ u, exec i { s with hostQ := rest } = .next u ∧ ((u.Quiet ∧ t = u) ∨ (¬ u.Quiet ∧ step u = .next t)) := by
  cases he : exec i { s with hostQ := rest } with
  | next u =>
    refine ⟨u, rfl, ?_⟩
    by_cases hu : u.Quiet
    · rw [step_host_quiet hq hw hd he hu] at h
      cases h
      exact .inl ⟨hu, rfl⟩
    · rw [step_host_starts hq hw hd he hu] at h
      exact .inr ⟨hu, h⟩
  | fault r => simp only [step_host hq hw hd, he, reduceCtorEq] at h
  | refused r => simp only [step_host hq hw hd, he, reduceCtorEq] at h

end

/-- A step inside an operation emits exactly one event (00 R11). -/
theorem step_running_emits {s t : State} (hq : ¬ s.Quiet) (h : step s = .next t) : ∃ e, t.trace = s.trace ++ [e] :=
  runInstruction_emits hq (step_running hq ▸ h)

end Sys2Proof.Machine
end

section
/-! Proofs of the statements of the family 00_scope.md. -/

namespace Sys2Proof.Machine

/-- Settles O10: inside an operation the step is one instruction, which emits one event; a queued command that starts an
operation emits nothing before the operation's first event, and the other four are over with what `exec` emitted. -/
theorem oneEventPerStep : Obligations.OneEventPerStep := by
  intro s t h
  refine ⟨fun hq => step_running_emits hq h, fun w rest i hq hw hd => ?_, fun hq hw => ?_⟩
  · obtain ⟨u, he, hu⟩ := step_host_next hq hw hd h
    have whole : u.Quiet → t = u := fun hquiet => hu.elim And.right fun hrun => absurd hquiet hrun.1
    refine ⟨fun hi => ?_, ?_, fun hi => ?_⟩
    · obtain ⟨hrun, htrace⟩ := exec_starts_operation hi he
      obtain ⟨hquiet, -⟩ | ⟨-, hfirst⟩ := hu
      · exact absurd hquiet hrun
      · obtain ⟨e, hemit⟩ := step_running_emits hrun hfirst
        exact ⟨e, by rw [hemit, htrace]⟩
    · rintro ⟨sel, rfl⟩
      obtain ⟨hquiet, htrace⟩ := execOpen_trace he
      rw [whole hquiet]
      exact htrace
    · obtain ⟨hquiet, htrace⟩ := exec_without_event hi he
      rw [whole hquiet, htrace]
  · rw [step_wait hq hw] at h
    cases h
    rfl

/-- Settles O3: idle, by the three ways `exec` of the host's command can answer; inside an operation the step is one
instruction, which is the fetched one's `exec` and then `advance`; with nothing queued, by the wait. -/
theorem stepRunsDecodedInstruction : Obligations.StepRunsDecodedInstruction := by
  refine ⟨fun s w rest i hq hw hd => ⟨?_, ?_, ?_⟩, fun s s1 i hq hf => ?_, fun s hq hw => step_wait hq hw⟩
  · exact fun t he ht => step_host_quiet hq hw hd he ht
  · exact fun t he ht => step_host_starts hq hw hd he ht
  · exact fun r he => step_host_refused hq hw hd he
  · rw [step_running hq]
    cases he : exec i s1 <;> simp only [runInstruction, hf, he]

end Sys2Proof.Machine
end

section
/-! SUPPORT. What an event does to the state, and what a step of a running operation or of a waiting machine can do. -/

namespace Sys2Proof.Machine

/-! ## Events -/

/-- The instructions of formats C and E: COG commands and interface events. -/
def isEvent : Instr → Bool
  | .lineData _ _ _ _ _ => false
  | i => !isHostCommand i

/-- `xport_en` after an event (44 R213, R214). -/
def xportAfter (i : Instr) (x : Option Bool) : Option Bool :=
  match i with
  | .xportEnable => some true
  | .xportDisable => some false
  | _ => x

/-- The events whose answer goes to a sampled value (10 R28). -/
def takesSample : Instr → Bool
  | .readId | .readBreakage | .readDcdc | .gpioRead _ | .timerQuery => true
  | _ => false

/-- What an event does (44 R210 to R245): it is traced, it may draw an answer and keep it as a sample, write a pin latch, or
switch the transport. -/
theorem exec_event {i : Instr} {s u : State} (hi : isEvent i = true) (h : exec i s = .next u) :
    ∃ tr o l m, u = { s with
        trace := tr, oracle := o, pinOut := l, xportEn := xportAfter i s.xportEn, sampled := m } ∧
      (takesSample i = false → m = s.sampled) := by
  cases i
  case readId | readBreakage | readDcdc | gpioRead | timerQuery => cases h; exact ⟨_, _, _, _, rfl, nofun⟩
  case openPanel | close | setTemperature | status | begin | endPower | clear | paint | lineData => cases hi
  all_goals cases h; exact ⟨_, _, _, _, rfl, fun _ => rfl⟩

/-- An instruction the host does not send is an event or a LINE_DATA (30 R90). -/
theorem isEvent_or_lineData {i : Instr} (hi : isHostCommand i = false) :
    isEvent i = true ∨ ∃ row data fixed pol border, i = .lineData row data fixed pol border := by
  cases i
  case lineData row data fixed pol border => exact .inr ⟨row, data, fixed, pol, border, rfl⟩
  all_goals exact .inl (congrArg not hi)

/-- What an instruction the host does not send may change. -/
theorem exec_notHost_frame {i : Instr} {s u : State} (hi : isHostCommand i = false) (h : exec i s = .next u) :
    u = { s with
          trace := u.trace, oracle := u.oracle, pinOut := u.pinOut, xportEn := u.xportEn, sampled := u.sampled, lb := u.lb
          line := u.line } := by
  rcases isEvent_or_lineData hi with hi | ⟨row, data, fixed, pol, border, rfl⟩
  · obtain ⟨tr, o, l, m, rfl, -⟩ := exec_event hi h
    rfl
  · obtain ⟨p, -, -, -, rfl⟩ := execLineData_next.1 h
    rfl

/-! ## The step of a running operation -/

/-- After an event of an operation the machine goes on inside a Line, or the operation moves on. -/
theorem advance_running {s u t : State} (hq : ¬ s.Quiet) (h : advance s u = .next t) :
    (∃ l, t = { u with line := l }) ∨ advanceOperation { u with line := none } = .next t := by
  unfold advance at h
  split at h
  case h_1 => cases h; exact .inl ⟨_, rfl⟩
  case h_2 => cases h; exact .inl ⟨_, rfl⟩
  case h_3 => exact .inr h
  case h_4 hl =>
    rw [if_neg fun hc => hq ⟨hc, hl⟩] at h
    split at h
    · rename_i hu
      exact .inr (by rwa [← hu])
    · cases h; exact .inl ⟨_, rfl⟩

/-- A step of a running operation is a fetched instruction that the host does not send, and the move after it. -/
theorem step_running_cases {s t : State} (hq : ¬ s.Quiet) (h : step s = .next t) :
    ∃ i s1 u, fetch s = .run i s1 ∧ isHostCommand i = false ∧ exec i s1 = .next u ∧ advance s u = .next t := by
  rw [step_running hq] at h
  rcases runInstruction_next_cases h with ⟨hw, -⟩ | ⟨i, s1, u, hf, he, ha⟩
  · exact absurd hw (fetch_ne_wait hq)
  · exact ⟨i, s1, u, hf, fetch_not_host hq hf, he, ha⟩

/-- What a step of a running operation may change: no register of the handle, and not the image. -/
theorem step_running_frame {s t : State} (hq : ¬ s.Quiet) (h : step s = .next t) :
    t = { s with
          ctl := t.ctl, line := t.line, pwr := t.pwr, status := t.status, fromFailed := t.fromFailed, sampled := t.sampled
          trace := t.trace, oracle := t.oracle, pinOut := t.pinOut, xportEn := t.xportEn, lb := t.lb, hostQ := t.hostQ } := by
  obtain ⟨i, s1, u, hf, hi, he, ha⟩ := step_running_cases hq h
  rw [advance_frame ha, exec_notHost_frame hi he, fetch_frame hf]

/-! ## The step of a machine that waits for the host -/

/-- With no operation running a step changes nothing, or it takes a command, which is the whole step or is followed by the
first event of the operation it starts. -/
theorem step_quiet_cases {s t : State} (hq : s.Quiet) (h : step s = .next t) :
    t = s ∨ ∃ w rest i u, s.hostQ = w :: rest ∧ decode (.host w) = .ok i ∧ exec i { s with hostQ := rest } = .next u ∧
      ((u.Quiet ∧ t = u) ∨ (¬ u.Quiet ∧ step u = .next t)) := by
  cases hw : s.hostQ with
  | nil =>
    rw [step_wait hq hw] at h
    cases h
    exact .inl rfl
  | cons w rest =>
    cases hd : decode (.host w) with
    | ok i =>
      obtain ⟨u, he, hu⟩ := step_host_next hq hw hd h
      exact .inr ⟨w, rest, i, u, rfl, hd, he, hu⟩
    | error e => simp [step, runStep, runInstruction, fetch_idle hq.1 hq.2, fetchHost, hw, hd] at h

end Sys2Proof.Machine
end

section
/-! SUPPORT. What keeps the invariant: the parts of it that most steps do not touch, the host's commands, the events of each phase,
and the Line procedure. -/

namespace Sys2Proof.Machine

/-! ## Parts of the invariant -/

/-- The registers of the handle and the spaces being as they were, the invariant is that of the place the machine has come to. -/
theorem State.Inv.of_frame {s t : State} (hs : s.Inv)
    (hf : t = { s with
      ctl := t.ctl, line := t.line, pwr := t.pwr, status := t.status, fromFailed := t.fromFailed, sampled := t.sampled
      trace := t.trace, oracle := t.oracle, pinOut := t.pinOut, xportEn := t.xportEn, hostQ := t.hostQ, result := t.result })
    (running : t.ctl ≠ .idle → s.handleValid = true) (phase : t.PhaseOk) (sampled : t.SampledOk) (line : t.LineOk) :
    t.Inv where
  memory := by rw [hf]; exact hs.memory
  handle := by rw [hf]; exact { hs.handle with }
  running := by rw [hf]; exact running
  phase := phase
  sampled := sampled
  line := line

theorem sampledOk_of_none {t : State} (hc : t.ctl ≠ .vfId true) (hm : t.sampled = Sampled.none) : t.SampledOk := by
  rw [State.SampledOk, if_neg hc, hm]

theorem State.SampledOk.eq_none {s : State} (h : s.SampledOk) (hc : s.ctl ≠ .vfId true) : s.sampled = Sampled.none := by
  rwa [State.SampledOk, if_neg hc] at h

theorem lineOk_of_none {t : State} (hl : t.line = none) : t.LineOk :=
  ⟨fun h => absurd hl h, fun h => by rw [hl] at h; cases h⟩

/-- With a handle a profile is held, the table's row for its size class (10 R21). -/
theorem State.Inv.profile {s : State} (hs : s.Inv) (hh : s.handleValid = true) :
    ∃ p, s.profile = some p ∧ p = profileOf s.cfg p.sizeClass := by
  obtain ⟨p, hp⟩ := Option.isSome_iff_exists.1 (hs.handle.handle_profile ▸ hh)
  exact ⟨p, hp, hs.handle.profile_row p hp⟩

/-- Every entry of a `COMP` that meets the constraints meets that of 42 R178. -/
theorem compOf_ok {cfg : Cfg} (h : cfg.ok = true) (c : SizeClass) (b : Band) : (compOf cfg c b).ok = true := by
  simp only [Cfg.ok, CompTable.ok, Bool.and_eq_true] at h
  unfold compOf
  split_ifs <;> cases c <;> simp [compRow, h]

/-- The constraint on a compensation profile gives that on the shape of a block-scan stage (42 R178). -/
theorem stageShape_ok {c : CompProfile} (h : c.ok = true) (stage : Stage) : (stageShape c stage).Ok := by
  simp only [CompProfile.ok, Bool.and_eq_true, decide_eq_true_eq] at h
  obtain ⟨⟨⟨⟨⟨hr1, hs1⟩, hb1⟩, hr3⟩, hs3⟩, hb3⟩ := h
  cases stage
  · exact ⟨hr1, hs1, hb1⟩
  · exact ⟨hr3, hs3, hb3⟩

/-- The selected compensation profile meets its constraint (10 R22, 42 R178). -/
theorem State.Inv.stageShape_ok {s : State} (hs : s.Inv) {c : CompProfile} (hc : s.comp = some c) (stage : Stage) :
    (stageShape c stage).Ok := by
  obtain ⟨p, b, -, -, rfl⟩ := hs.handle.comp_row c hc
  exact Machine.stageShape_ok (compOf_ok hs.handle.cfg_ok _ _) stage

/-- A stage's first place is a place of it: no window starts after 0, as `block` is at least `step` (42 R174, R178). -/
theorem scanPlace_start {sh : ScanShape} (h : sh.Ok) (lines : Nat) : ScanPlace lines sh (scanStart sh) := by
  obtain ⟨hp, hs, hb⟩ := h
  refine ⟨hp, ⟨0, by simp [scanStart]⟩, ?_, Nat.lt_of_lt_of_le hs hb⟩
  simp only [scanStart, firstWindow]
  omega

/-- From a place of a stage the scan comes to a place of it (42 R174). -/
theorem scanPlace_next {lines : Nat} {sh : ScanShape} {q r : ScanPos} (hok : sh.Ok) (hq : ScanPlace lines sh q)
    (h : scanNext lines sh q = some r) : ScanPlace lines sh r := by
  obtain ⟨hn, ⟨j, hj⟩, hw, ho⟩ := hq
  unfold scanNext at h
  split at h
  · cases h
    exact ⟨hn, ⟨j, hj⟩, hw, ‹_›⟩
  · split at h
    · cases h
      exact ⟨hn, ⟨j + 1, by rw [hj]; push_cast; ring⟩, ‹_›, Nat.lt_of_le_of_lt (Nat.zero_le _) ho⟩
    · split at h
      · cases h
        obtain ⟨-, hj0, hw0, ho0⟩ := scanPlace_start hok lines
        exact ⟨‹_›, hj0, hw0, ho0⟩
      · cases h

theorem linesPerDisplay_pos (c : SizeClass) : 0 < linesPerDisplay c := by cases c <;> decide

theorem pdFlushCode_pos (b : PdBorder) (c : SizeClass) : 0 < (pdFlushCode b c).length := by
  cases c <;> exact Nat.succ_pos _

/-! ## The host's commands -/

/-- What the invariant says between operations. -/
structure State.IdleOk (s : State) : Prop where
  line : s.line = none
  pwr : s.pwr = .off ∨ s.pwr = .ready
  failed : s.fromFailed = false
  status : s.handleValid = true → s.pwr = .ready → s.status = some .ok

theorem phaseOk_idle {s : State} (hc : s.ctl = .idle) (h : s.IdleOk) : s.PhaseOk := by
  simp only [State.PhaseOk, hc]
  exact ⟨h.line, h.pwr, h.failed, h.status⟩

theorem State.PhaseOk.idleOk {s : State} (h : s.PhaseOk) (hc : s.ctl = .idle) : s.IdleOk := by
  simp only [State.PhaseOk, hc] at h
  obtain ⟨hline, hpwr, hfailed, hstatus⟩ := h
  exact ⟨hline, hpwr, hfailed, hstatus⟩

section
variable {s t : State} (hs : s.Inv) (hq : s.Quiet)
include hs hq

theorem State.Inv.idleOk : s.IdleOk := hs.phase.idleOk hq.1

theorem State.Inv.sampled_idle : s.sampled = Sampled.none := hs.sampled.eq_none (by rw [hq.1]; nofun)

/-- What a running frame command leaves alone holds when it is issued. -/
theorem State.Inv.frameOk_idle (hh : s.handleValid = true) {op : FrameOp} (hc : s.compValid = true)
    (himg : op = .paint → s.ImageReady) : s.FrameOk op :=
  have hi := hs.idleOk hq
  ⟨hc, himg, hi.pwr, hi.status hh, hi.failed⟩

/-- A change of the trace, the queue, the result and the answers drawn only. -/
theorem State.Inv.of_quiet (hf : t = { s with trace := t.trace, oracle := t.oracle, hostQ := t.hostQ, result := t.result }) :
    t.Inv := by
  refine hs.of_frame (by rw [hf]) (by rw [hf]; exact hs.running) ?_ ?_ ?_
  · have hi := hs.idleOk hq
    rw [hf]
    exact phaseOk_idle hq.1 ⟨hi.line, hi.pwr, hi.failed, hi.status⟩
  · rw [hf]
    exact hs.sampled
  · rw [hf]
    exact lineOk_of_none hq.2

end

theorem resolve_eq {cfg : Cfg} {sel : Nat} {p : PanelProfile} (h : resolve cfg sel = some p) :
    p = profileOf cfg p.sizeClass := by
  obtain ⟨c, -, rfl⟩ := Option.map_eq_some_iff.1 h
  rfl

/-- A handle just opened meets the invariant: the profile is the table's row, the buffer empty, nothing selected (40 R122). -/
theorem withNewHandle_inv {s : State} (hs : s.Inv) (hq : s.Quiet) {p : PanelProfile} (hp : p = profileOf s.cfg p.sizeClass) :
    (s.withNewHandle p).Inv where
  memory := ⟨rfl, hs.memory.2⟩
  handle :=
    { cfg_ok := hs.handle.cfg_ok
      handle_profile := rfl
      timer := rfl
      profile_row := fun _ h => Option.some.inj h ▸ hp
      lb_size := fun _ h => Option.some.inj h ▸ rfl
      lb_spare := nofun
      comp_valid := rfl
      band_valid := rfl
      comp_row := nofun }
  running _ := rfl
  phase := phaseOk_idle hq.1 ⟨hq.2, .inl rfl, rfl, nofun⟩
  sampled := hs.sampled
  line := lineOk_of_none hq.2

theorem openWith_inv {s : State} (hs : s.Inv) (hq : s.Quiet) {p : PanelProfile} (hp : p = profileOf s.cfg p.sizeClass) :
    (openWith p s).Inv := by
  have asked : ∀ e o, ({ s.emit e with oracle := o } : State).Inv := fun e o => hs.of_quiet hq rfl
  simp only [openWith]
  split_ifs
  · exact withNewHandle_inv (asked _ _) hq hp
  · exact hs.of_quiet hq rfl
  · exact hs.of_quiet hq rfl

/-- Without a handle nothing of it is held (40 R123). -/
theorem execClose_inv {s t : State} (hs : s.Inv) (h : execClose s = .next t) : t.Inv := by
  obtain ⟨hq, -, rfl⟩ := execClose_next.1 h
  have hi := hs.idleOk hq
  exact
    { memory := ⟨rfl, hs.memory.2⟩
      handle := ⟨hs.handle.cfg_ok, rfl, rfl, nofun, nofun, nofun, rfl, rfl, nofun⟩
      running := fun hc => absurd hq.1 hc
      phase := phaseOk_idle hq.1 ⟨hq.2, hi.pwr, hi.failed, nofun⟩
      sampled := hs.sampled
      line := lineOk_of_none hq.2 }

/-- SET_TEMPERATURE selects the table's entry for the profile (40 R127). -/
theorem execSetTemperature_inv {celsius : Int} {s t : State} (hs : s.Inv) (h : execSetTemperature celsius s = .next t) :
    t.Inv := by
  obtain ⟨hq, -, p, hp, rfl⟩ := execSetTemperature_next.1 h
  have hi := hs.idleOk hq
  exact
    { memory := hs.memory
      handle :=
        { hs.handle with
          comp_valid := rfl
          band_valid := rfl
          comp_row := fun _ h => ⟨p, _, hp, rfl, (Option.some.inj h).symm⟩ }
      running := hs.running
      phase := phaseOk_idle hq.1 ⟨hi.line, hi.pwr, hi.failed, hi.status⟩
      sampled := hs.sampled
      line := lineOk_of_none hq.2 }

theorem execBegin_inv {s t : State} (hs : s.Inv) (h : execBegin s = .next t) : t.Inv := by
  obtain ⟨hq, hh, rfl⟩ := execBegin_next.1 h
  have hi := hs.idleOk hq
  exact hs.of_frame rfl (fun _ => hh) ⟨by decide, ⟨rfl, rfl, hi.failed, hi.line⟩, nofun⟩
    (sampledOk_of_none nofun (hs.sampled_idle hq)) (lineOk_of_none hq.2)

/-- PoweringDown starts at the flush of the profile's size class; its `pwr` is the failure's where a check of BEGIN failed. -/
theorem phaseOk_pdFlush_start {t : State} {p : PanelProfile} (hc : t.ctl = .pdFlush 0) (hl : t.line = none)
    (hp : t.profile = some p)
    (hfail : t.fromFailed = true → ∃ kind, t.pwr = .failed kind ∧ t.status = some (statusOf kind)) : t.PhaseOk := by
  simp only [State.PhaseOk, hc, hl, and_self, if_true]
  exact ⟨⟨p, hp, pdFlushCode_pos _ _, fun h => absurd rfl h⟩, hfail⟩

theorem execEnd_inv {s t : State} (hs : s.Inv) (h : execEnd s = .next t) : t.Inv := by
  obtain ⟨hq, hh, rfl⟩ := execEnd_next.1 h
  obtain ⟨p, hp, -⟩ := hs.profile hh
  exact hs.of_frame rfl (fun _ => hh) (phaseOk_pdFlush_start rfl hq.2 hp nofun)
    (sampledOk_of_none nofun (hs.sampled_idle hq)) (lineOk_of_none hq.2)

/-- A frame command that has been issued stands at the first place of stage 1 (42 R170, R171). -/
theorem phaseOk_stageStart {t : State} {op : FrameOp} {stage : Stage} {p : PanelProfile} {c : CompProfile}
    (hctl : t.ctl = stageStart op c stage) (hf : t.FrameOk op) (hp : t.profile = some p) (hc : t.comp = some c)
    (hok : (stageShape c stage).Ok) : t.PhaseOk := by
  simp only [State.PhaseOk, hctl, stageStart]
  exact ⟨hf, p, c, hp, hc, scanPlace_start hok _⟩

theorem execClear_inv {s t : State} (hs : s.Inv) (h : execClear s = .next t) : t.Inv := by
  obtain ⟨hq, hh, hcv, c, hc, hcok, rfl⟩ := execClear_next.1 h
  obtain ⟨p, hp, -⟩ := hs.profile hh
  have hf : s.FrameOk .clear := hs.frameOk_idle hq hh hcv nofun
  exact hs.of_frame rfl (fun _ => hh) (phaseOk_stageStart rfl { hf with } hp hc (stageShape_ok hcok _))
    (sampledOk_of_none nofun (hs.sampled_idle hq)) (lineOk_of_none hq.2)

theorem execPaint_inv {image : List Byte} {s t : State} (hs : s.Inv) (h : execPaint image s = .next t) : t.Inv := by
  obtain ⟨hq, hh, hcv, c, hc, hcok, p, hp, hlen, rfl⟩ := execPaint_next.1 h
  have hf : s.FrameOk .clear := hs.frameOk_idle hq hh hcv nofun
  have himg : ∀ a < imageLength p, (Memory.read (Memory.ofList image) a).isSome = true := fun a ha => by
    rw [Memory.read_ofList image (hlen ▸ ha), Option.isSome_some]
  exact
    { memory := ⟨hs.memory.1, Memory.wf_ofList image⟩
      handle := { hs.handle with }
      running := fun _ => hh
      phase := phaseOk_stageStart rfl { hf with image := fun _ => ⟨p, hp, himg⟩ } hp hc (stageShape_ok hcok _)
      sampled := sampledOk_of_none nofun (hs.sampled_idle hq)
      line := lineOk_of_none hq.2 }

/-- A command of the host keeps the invariant. -/
theorem exec_host_inv {i : Instr} {s t : State} (hi : isHostCommand i = true) (hs : s.Inv) (h : exec i s = .next t) :
    t.Inv := by
  cases i
  case openPanel sel =>
    obtain ⟨hq, -, ⟨-, rfl⟩ | ⟨p, hp, rfl⟩⟩ := execOpen_next.1 h
    · exact hs.of_quiet hq rfl
    · exact openWith_inv hs hq (resolve_eq hp)
  case close => exact execClose_inv hs h
  case setTemperature celsius => exact execSetTemperature_inv hs h
  case status =>
    obtain ⟨hq, -, ⟨v, -, rfl⟩ | ⟨-, rfl⟩⟩ := execStatus_next.1 h <;> exact hs.of_quiet hq rfl
  case begin => exact execBegin_inv hs h
  case endPower => exact execEnd_inv hs h
  case clear => exact execClear_inv hs h
  case paint image => exact execPaint_inv hs h
  all_goals cases hi

end Sys2Proof.Machine
end

section
/-! SUPPORT. What keeps the invariant while an operation runs: the events of each phase, and the Line procedure. -/

namespace Sys2Proof.Machine

/-! ## The straight pieces -/

/-- A straight piece of events that take no sample. -/
def isPlainPiece (code : List Instr) : Bool := code.all fun i => isEvent i && !takesSample i

/-- A straight piece of events, of which only the last may take a sample: the test follows the piece (10 R28). -/
def isSamplingPiece (code : List Instr) : Bool := code.all isEvent && code.dropLast.all fun i => !takesSample i

theorem plainPiece_event {code : List Instr} {k : Nat} {s s1 u : State} {i : Instr} (hcode : isPlainPiece code = true)
    (hf : fetchAt code k s = .run i s1) (he : exec i s1 = .next u) :
    ∃ (hk : k < code.length) (tr : List Event) (o : Oracle) (l : PinLatches),
      u = { s with trace := tr, oracle := o, pinOut := l, xportEn := xportAfter code[k] s.xportEn } := by
  simp only [isPlainPiece, List.all_eq_true, Bool.and_eq_true, Bool.not_eq_true'] at hcode
  obtain ⟨hi, rfl⟩ := fetchAt_run.1 hf
  obtain ⟨hk, rfl⟩ := List.getElem?_eq_some_iff.1 hi
  obtain ⟨hevent, hsample⟩ := hcode _ (List.getElem_mem hk)
  obtain ⟨tr, o, l, m, rfl, hm⟩ := exec_event hevent he
  exact ⟨hk, tr, o, l, by rw [hm hsample]⟩

theorem samplingPiece_event {code : List Instr} {k : Nat} {s s1 u : State} {i : Instr} (hcode : isSamplingPiece code = true)
    (hf : fetchAt code k s = .run i s1) (he : exec i s1 = .next u) :
    ∃ (hk : k < code.length) (tr : List Event) (o : Oracle) (l : PinLatches) (m : Sampled),
      u = { s with trace := tr, oracle := o, pinOut := l, xportEn := xportAfter code[k] s.xportEn, sampled := m } ∧
      (k + 1 < code.length → m = s.sampled) := by
  simp only [isSamplingPiece, Bool.and_eq_true, List.all_eq_true, Bool.not_eq_true'] at hcode
  obtain ⟨hevent, hsample⟩ := hcode
  obtain ⟨hi, rfl⟩ := fetchAt_run.1 hf
  obtain ⟨hk, rfl⟩ := List.getElem?_eq_some_iff.1 hi
  obtain ⟨tr, o, l, m, rfl, hm⟩ := exec_event (hevent _ (List.getElem_mem hk)) he
  refine ⟨hk, tr, o, l, m, rfl, fun hlt => hm (hsample _ ?_)⟩
  have hd : k < code.dropLast.length := by rw [List.length_dropLast]; omega
  exact List.getElem_dropLast hd ▸ List.getElem_mem hd

/-- After a piece's event: its next place while there is one, else what follows it. -/
theorem afterPiece_cases {code : List Instr} {k : Nat} {stay : Nat → Ctl} {t u : State} {done : Result}
    (h : afterPiece code k stay t done = .next u) :
    (k + 1 < code.length ∧ u = { t with ctl := stay (k + 1) }) ∨ (code.length ≤ k + 1 ∧ done = .next u) := by
  unfold afterPiece at h
  split at h
  · cases h; exact .inl ⟨‹_›, rfl⟩
  · exact .inr ⟨Nat.le_of_not_lt ‹_›, h⟩

/-- An event that is not `XportDisable` leaves an enabled transport enabled. -/
theorem xportAfter_enabled {code : List Instr} (h : Instr.xportDisable ∉ code) {k : Nat} (hk : k < code.length)
    {x : Option Bool} (hx : x = some true) : xportAfter code[k] x = some true := by
  have hne : code[k] ≠ .xportDisable := fun heq => h (heq ▸ List.getElem_mem hk)
  generalize code[k] = i at hne
  subst hx
  cases i
  case xportDisable => exact absurd rfl hne
  all_goals rfl

/-- From the fifth event of the pin part, `XportEnable`, the transport is enabled (41 R142). -/
theorem puPins_xport : ∀ (k : Nat) (hk : k < puPinsCode.length) (x : Option Bool), (5 ≤ k → x = some true) → 4 ≤ k →
    xportAfter puPinsCode[k] x = some true := by decide

/-- From the first event of the re-check, `XportEnable`, the transport is enabled (41 R152). -/
theorem pdCheck_xport : ∀ (k : Nat) (hk : k < pdCheckCode.length) (x : Option Bool), (1 ≤ k → x = some true) →
    xportAfter pdCheckCode[k] x = some true := by decide

/-! ## BEGIN, event by event -/

theorem vfId_false_ne_true : Ctl.vfId false ≠ .vfId true := by decide

section
variable {s s1 u t : State} {i : Instr}

/-- After an event of an operation, outside a Line, the operation moves on. -/
theorem advance_event (hrun : s.ctl ≠ .idle) (hl : s.line = none) (ha : advance s u = .next t) (hu : u.line = s.line) :
    advanceOperation u = .next t := by
  rwa [advance_operation hrun hl (hu.trans hl)] at ha

/-- What the invariant says of the place the machine is at. -/
theorem State.Inv.phase_at (hs : s.Inv) {c : Ctl} (hc : s.ctl = c) : ({ s with ctl := c } : State).PhaseOk := by
  subst hc
  exact hs.phase

/-- Outside a Line an event leaves the handle's registers and the spaces alone. -/
theorem State.Inv.of_event (hs : s.Inv) (hrun : s.ctl ≠ .idle) (hl : t.line = none)
    (hf : t = { s with
      ctl := t.ctl, line := t.line, pwr := t.pwr, status := t.status, fromFailed := t.fromFailed, sampled := t.sampled
      trace := t.trace, oracle := t.oracle, pinOut := t.pinOut, xportEn := t.xportEn, hostQ := t.hostQ, result := t.result })
    (phase : t.PhaseOk) (hc : t.ctl ≠ .vfId true) (sampled : t.sampled = Sampled.none) : t.Inv :=
  hs.of_frame hf (fun _ => hs.running hrun) phase (sampledOk_of_none hc sampled) (lineOk_of_none hl)

/-- A failed check of BEGIN goes to PoweringDown (60 R265). -/
theorem raiseFail_inv {kind : FailKind} (hs : s.Inv) (hrun : s.ctl ≠ .idle)
    (h : Host.Outcome.next (u.forget.raiseFail kind) = (.next t : Result)) (hl : u.line = none)
    (hf : u = { s with
      ctl := u.ctl, sampled := u.sampled, trace := u.trace, oracle := u.oracle, pinOut := u.pinOut, xportEn := u.xportEn }) :
    t.Inv := by
  cases h
  obtain ⟨p, hp, -⟩ := hs.profile (hs.running hrun)
  have hpu : u.profile = some p := by rw [hf]; exact hp
  exact hs.of_event hrun hl (by rw [hf]; rfl) (phaseOk_pdFlush_start rfl hl hpu fun _ => ⟨kind, rfl, rfl⟩) nofun rfl

variable (hs : s.Inv) (hrun : s.ctl ≠ .idle) (hl : s.line = none) (hf : fetchOperation s = .run i s1)
  (he : exec i s1 = .next u) (ha : advance s u = .next t)
include hs hrun hl hf he ha

theorem vfId_inv {second : Bool} (hc : s.ctl = .vfId second) : t.Inv := by
  obtain ⟨hb, hx⟩ := hs.phase_at hc
  simp only [fetchOperation, hc] at hf
  cases hf
  cases second with
  | false =>
    have hm := hs.sampled.eq_none (by rw [hc]; exact vfId_false_ne_true)
    cases he
    replace ha := advance_event hrun hl ha rfl
    simp only [advanceOperation, State.cogRead_ctl, hc] at ha
    cases ha
    exact hs.of_frame rfl (fun _ => hs.running hrun) ⟨{ hb with }, hx⟩ ⟨s.oracle.askCog, by simp [hm]⟩ (lineOk_of_none hl)
  | true =>
    obtain ⟨tr, o, l, m, rfl, -⟩ := exec_event rfl he
    replace ha := advance_event hrun hl ha rfl
    simp only [advanceOperation, hc] at ha
    obtain ⟨id2, -, ha⟩ := testSample_next.1 ha
    split at ha
    · cases ha
      exact hs.of_event hrun hl rfl ⟨by decide, { hb with }, hx⟩ nofun rfl
    · exact raiseFail_inv hs hrun ha hl rfl

theorem puBusy_inv (hc : s.ctl = .puBusy) : t.Inv := by
  obtain ⟨hb, hx⟩ := hs.phase_at hc
  simp only [fetchOperation, hc] at hf
  cases hf
  obtain ⟨tr, o, l, m, rfl, -⟩ := exec_event rfl he
  replace ha := advance_event hrun hl ha rfl
  simp only [advanceOperation, hc] at ha
  obtain ⟨busy, -, ha⟩ := testSample_next.1 ha
  split at ha <;> cases ha
  · exact hs.of_event hrun hl rfl ⟨{ hb with }, hx⟩ nofun rfl
  · exact hs.of_event hrun hl rfl ⟨{ hb with pwr := rfl }, hx⟩ vfId_false_ne_true rfl

variable (hm : s.sampled = Sampled.none)
include hm

theorem puPins_inv {k : Nat} (hc : s.ctl = .puPins k) : t.Inv := by
  obtain ⟨-, hb, hx⟩ := hs.phase_at hc
  simp only [fetchOperation, hc] at hf
  obtain ⟨hk, tr, o, l, rfl⟩ := plainPiece_event rfl hf he
  have hx' := puPins_xport k hk _ hx
  replace ha := advance_event hrun hl ha rfl
  simp only [advanceOperation, hc] at ha
  rcases afterPiece_cases ha with ⟨hlt, rfl⟩ | ⟨hle, ha⟩
  · exact hs.of_event hrun hl rfl ⟨hlt, { hb with }, fun h => hx' (Nat.le_of_succ_le_succ h)⟩ nofun hm
  · cases ha
    exact hs.of_event hrun hl rfl ⟨{ hb with }, hx' (Nat.le_trans (by decide) (Nat.le_of_succ_le_succ hle))⟩ nofun hm

theorem puWait_inv (hc : s.ctl = .puWait) : t.Inv := by
  obtain ⟨hb, hx⟩ := hs.phase_at hc
  simp only [fetchOperation, hc] at hf
  cases hf
  cases he
  replace ha := advance_event hrun hl ha rfl
  simp only [advanceOperation, State.emit_ctl, hc] at ha
  cases ha
  exact hs.of_event hrun hl rfl ⟨{ hb with }, hx⟩ nofun hm

theorem vfBreakage_inv {k : Nat} (hc : s.ctl = .vfBreakage k) : t.Inv := by
  obtain ⟨-, hb, hx⟩ := hs.phase_at hc
  simp only [fetchOperation, hc] at hf
  obtain ⟨hk, tr, o, l, m, rfl, hsame⟩ := samplingPiece_event rfl hf he
  have hx' := xportAfter_enabled (by decide) hk hx
  replace ha := advance_event hrun hl ha rfl
  simp only [advanceOperation, hc] at ha
  rcases afterPiece_cases ha with ⟨hlt, rfl⟩ | ⟨-, ha⟩
  · exact hs.of_event hrun hl rfl ⟨hlt, { hb with }, hx'⟩ nofun ((hsame hlt).trans hm)
  · obtain ⟨brk, -, ha⟩ := testSample_next.1 ha
    split at ha
    · cases ha
      exact hs.of_event hrun hl rfl ⟨by decide, { hb with }, hx'⟩ nofun rfl
    · exact raiseFail_inv hs hrun ha hl rfl

theorem vfInit_inv {k : Nat} (hc : s.ctl = .vfInit k) : t.Inv := by
  obtain ⟨-, hb, hx⟩ := hs.phase_at hc
  simp only [fetchOperation, hc] at hf
  obtain ⟨p, -, hf⟩ := fetchWithProfile_run.1 hf
  obtain ⟨hk, tr, o, l, rfl⟩ := plainPiece_event rfl hf he
  have hx' := xportAfter_enabled (by simp [vfInitCode]) hk hx
  replace ha := advance_event hrun hl ha rfl
  simp only [advanceOperation, hc] at ha
  obtain ⟨p, -, ha⟩ := withProfile_next.1 ha
  rcases afterPiece_cases ha with ⟨hlt, rfl⟩ | ⟨-, ha⟩
  · exact hs.of_event hrun hl rfl ⟨hlt, { hb with }, hx'⟩ nofun hm
  · cases ha
    exact hs.of_event hrun hl rfl ⟨by decide, by decide, by decide, { hb with }, hx'⟩ nofun hm

theorem vfPump_inv {a k : Nat} (hc : s.ctl = .vfPump a k) : t.Inv := by
  obtain ⟨ha1, ha4, -, hb, hx⟩ := hs.phase_at hc
  simp only [fetchOperation, hc] at hf
  obtain ⟨hk, tr, o, l, m, rfl, hsame⟩ := samplingPiece_event rfl hf he
  have hx' := xportAfter_enabled (by decide) hk hx
  replace ha := advance_event hrun hl ha rfl
  simp only [advanceOperation, hc] at ha
  rcases afterPiece_cases ha with ⟨hlt, rfl⟩ | ⟨-, ha⟩
  · exact hs.of_event hrun hl rfl ⟨ha1, ha4, hlt, { hb with }, hx'⟩ nofun ((hsame hlt).trans hm)
  · obtain ⟨dc, -, ha⟩ := testSample_next.1 ha
    split at ha
    · cases ha
      exact hs.of_event hrun hl rfl ⟨by decide, { hb with pwr := rfl }, hx'⟩ nofun rfl
    · split at ha
      · cases ha
        exact hs.of_event hrun hl rfl ⟨Nat.succ_pos a, ‹a < 4›, by decide, { hb with }, hx'⟩ nofun rfl
      · exact raiseFail_inv hs hrun ha hl rfl

theorem rdFinish_inv {k : Nat} (hc : s.ctl = .rdFinish k) : t.Inv := by
  obtain ⟨-, hb, hx⟩ := hs.phase_at hc
  simp only [fetchOperation, hc] at hf
  obtain ⟨hk, tr, o, l, rfl⟩ := plainPiece_event rfl hf he
  replace ha := advance_event hrun hl ha rfl
  simp only [advanceOperation, hc] at ha
  rcases afterPiece_cases ha with ⟨hlt, rfl⟩ | ⟨-, ha⟩
  · obtain rfl : k = 0 := Nat.lt_one_iff.1 (Nat.lt_of_succ_lt_succ hlt)
    exact hs.of_event hrun hl rfl ⟨hlt, { hb with }, hx⟩ nofun hm
  · cases ha
    exact hs.of_event hrun hl rfl (phaseOk_idle rfl ⟨hl, .inr hb.pwr, hb.failed, fun _ _ => rfl⟩) nofun rfl

/-! ## END, event by event, after the flush -/

theorem pdCheck_inv {k : Nat} (hc : s.ctl = .pdCheck k) : t.Inv := by
  obtain ⟨-, -, hpwr, hx⟩ := hs.phase_at hc
  simp only [fetchOperation, hc] at hf
  obtain ⟨hk, tr, o, l, m, rfl, hsame⟩ := samplingPiece_event rfl hf he
  have hx' := pdCheck_xport k hk _ hx
  replace ha := advance_event hrun hl ha rfl
  simp only [advanceOperation, hc] at ha
  rcases afterPiece_cases ha with ⟨hlt, rfl⟩ | ⟨-, ha⟩
  · exact hs.of_event hrun hl rfl ⟨hlt, hl, hpwr, fun _ => hx'⟩ nofun ((hsame hlt).trans hm)
  · obtain ⟨dc, -, ha⟩ := testSample_next.1 ha
    split at ha <;> cases ha
    · exact hs.of_event hrun hl rfl ⟨by decide, hl, hpwr, hx'⟩ nofun rfl
    · exact hs.of_event hrun hl rfl ⟨by decide, hl, hpwr⟩ nofun rfl

theorem pdRegs_inv {k : Nat} (hc : s.ctl = .pdRegs k) : t.Inv := by
  obtain ⟨-, -, hpwr, hx⟩ := hs.phase_at hc
  simp only [fetchOperation, hc] at hf
  obtain ⟨hk, tr, o, l, rfl⟩ := plainPiece_event rfl hf he
  replace ha := advance_event hrun hl ha rfl
  simp only [advanceOperation, hc] at ha
  rcases afterPiece_cases ha with ⟨hlt, rfl⟩ | ⟨-, ha⟩
  · exact hs.of_event hrun hl rfl ⟨hlt, hl, hpwr, xportAfter_enabled (by decide) hk hx⟩ nofun hm
  · cases ha
    exact hs.of_event hrun hl rfl ⟨by decide, hl, hpwr⟩ nofun hm

theorem pdFinal_inv {k : Nat} (hc : s.ctl = .pdFinal k) : t.Inv := by
  obtain ⟨-, -, hpwr⟩ := hs.phase_at hc
  simp only [fetchOperation, hc] at hf
  obtain ⟨hk, tr, o, l, rfl⟩ := plainPiece_event rfl hf he
  replace ha := advance_event hrun hl ha rfl
  simp only [advanceOperation, hc] at ha
  rcases afterPiece_cases ha with ⟨hlt, rfl⟩ | ⟨-, ha⟩
  · exact hs.of_event hrun hl rfl ⟨hlt, hl, hpwr⟩ nofun hm
  · cases ha
    exact hs.of_event hrun hl rfl ⟨by decide, by decide, by decide, hl, hpwr⟩ nofun hm

theorem pdPulses_inv {pulse k : Nat} (hc : s.ctl = .pdPulses pulse k) : t.Inv := by
  obtain ⟨h1, h10, -, -, hpwr⟩ := hs.phase_at hc
  simp only [fetchOperation, hc] at hf
  obtain ⟨hk, tr, o, l, rfl⟩ := plainPiece_event rfl hf he
  replace ha := advance_event hrun hl ha rfl
  simp only [advanceOperation, hc] at ha
  rcases afterPiece_cases ha with ⟨hlt, rfl⟩ | ⟨-, ha⟩
  · exact hs.of_event hrun hl rfl ⟨h1, h10, hlt, hl, hpwr⟩ nofun hm
  · split at ha <;> cases ha
    · exact hs.of_event hrun hl rfl ⟨Nat.succ_pos pulse, ‹pulse < 10›, by decide, hl, hpwr⟩ nofun hm
    · exact hs.of_event hrun hl rfl (phaseOk_idle rfl ⟨hl, .inl rfl, rfl, nofun⟩) nofun rfl

end

end Sys2Proof.Machine
end

section
/-! SUPPORT. What keeps the invariant where lines are sent: the Line procedure, the flush of PoweringDown, and CLEAR and PAINT. -/

namespace Sys2Proof.Machine

/-! ## Where a Line runs -/

/-- Lines are sent in the flush of PoweringDown, in a block-scan stage and in a sweep of a timed pass (43 R190). -/
theorem State.Inv.ctl_in_line {s : State} (hs : s.Inv) (hl : s.line ≠ none) :
    (∃ k, s.ctl = .pdFlush k) ∨ (∃ op stage n w offset, s.ctl = .scan op stage n w offset) ∨
      ∃ op j half row, s.ctl = .passRow op j half row := by
  cases hc : s.ctl
  case pdFlush k => exact .inl ⟨k, rfl⟩
  case scan op stage n w offset => exact .inr (.inl ⟨op, stage, n, w, offset, rfl⟩)
  case passRow op j half row => exact .inr (.inr ⟨op, j, half, row, rfl⟩)
  case idle =>
    obtain ⟨hline, -⟩ := hs.phase_at hc
    exact absurd hline hl
  case puBusy | puWait | vfId =>
    obtain ⟨hb, -⟩ := hs.phase_at hc
    exact absurd hb.line hl
  case puPins | vfBreakage | vfInit | rdFinish =>
    obtain ⟨-, hb, -⟩ := hs.phase_at hc
    exact absurd hb.line hl
  case vfPump =>
    obtain ⟨-, -, -, hb, -⟩ := hs.phase_at hc
    exact absurd hb.line hl
  case pdCheck | pdRegs | pdFinal | passArm | passQuery =>
    obtain ⟨-, hline, -⟩ := hs.phase_at hc
    exact absurd hline hl
  case pdPulses =>
    obtain ⟨-, -, -, hline, -⟩ := hs.phase_at hc
    exact absurd hline hl

/-- The flush from its first event on: `pwr` is PoweringDown. -/
theorem phaseOk_pdFlush {t : State} {k : Nat} {p : PanelProfile} (hc : t.ctl = .pdFlush k) (hp : t.profile = some p)
    (hk : k < (pdFlushCode t.cfg.pdBorder p.sizeClass).length)
    (hl : t.line ≠ none → p.sizeClass ≠ .s270 ∧ k % 2 = 0) (hpwr : t.pwr = .poweringDown)
    (hstart : ¬ (k = 0 ∧ t.line = none)) : t.PhaseOk := by
  simp only [State.PhaseOk, hc, if_neg hstart]
  exact ⟨⟨p, hp, hk, hl⟩, hpwr⟩

theorem State.Inv.pwr_pdFlush {s : State} (hs : s.Inv) {k : Nat} (hc : s.ctl = .pdFlush k)
    (hstart : ¬ (k = 0 ∧ s.line = none)) : s.pwr = .poweringDown := by
  have hp := hs.phase
  simp only [State.PhaseOk, hc, if_neg hstart] at hp
  exact hp.2

/-- The flush sends dummy lines at its even places, on S144 and S200, and else emits events that take no sample (41 R151). -/
theorem pdFlushCode_cases {b : PdBorder} {c : SizeClass} {k : Nat} {i : Instr} (h : (pdFlushCode b c)[k]? = some i) :
    (isEvent i = true ∧ takesSample i = false) ∨ (c ≠ .s270 ∧ k % 2 = 0 ∧ ∃ border, i = dummyLine border) := by
  obtain ⟨hk, rfl⟩ := List.getElem?_eq_some_iff.1 h
  cases c
  case s270 =>
    have hplain : isPlainPiece (pdFlushCode b .s270) = true := rfl
    simp only [isPlainPiece, List.all_eq_true, Bool.and_eq_true, Bool.not_eq_true'] at hplain
    exact .inl (hplain _ (List.getElem_mem hk))
  case s144 | s200 =>
    have hk : k < 6 := hk
    interval_cases k
    · exact .inr ⟨nofun, rfl, _, rfl⟩
    · exact .inl ⟨rfl, rfl⟩
    · exact .inr ⟨nofun, rfl, _, rfl⟩
    · exact .inl ⟨rfl, rfl⟩
    · exact .inr ⟨nofun, rfl, _, rfl⟩
    · exact .inl ⟨rfl, rfl⟩

/-! ## The move after a line or an event of the flush -/

section
variable {s t : State} (hs : s.Inv) (hrun : s.ctl ≠ .idle) (hm : s.sampled = Sampled.none)
include hs hrun hm

theorem pdFlush_advances {k : Nat} {tr : List Event} {o : Oracle} {l : PinLatches} {x : Option Bool} (hc : s.ctl = .pdFlush k)
    (ha : advanceOperation { s with
      pwr := .poweringDown, line := none, trace := tr, oracle := o, pinOut := l, xportEn := x } = .next t) : t.Inv := by
  simp only [advanceOperation, hc] at ha
  obtain ⟨p, hp, ha⟩ := withProfile_next.1 ha
  rcases afterPiece_cases ha with ⟨hlt, rfl⟩ | ⟨-, ha⟩
  · exact hs.of_event hrun rfl rfl (phaseOk_pdFlush rfl hp hlt (fun h => absurd rfl h) rfl nofun) nofun hm
  · cases ha
    exact hs.of_event hrun rfl rfl ⟨by decide, rfl, rfl, nofun⟩ nofun hm

theorem scan_advances {op : FrameOp} {stage : Stage} {n : Nat} {w : Int} {offset : Nat} {tr : List Event} {x : Option Bool}
    (hc : s.ctl = .scan op stage n w offset)
    (ha : advanceOperation { s with line := none, trace := tr, xportEn := x } = .next t) : t.Inv := by
  obtain ⟨hframe, p, c, hp, hcomp, hplace⟩ := hs.phase_at hc
  have hok := hs.stageShape_ok hcomp
  simp only [advanceOperation, hc] at ha
  obtain ⟨p', hp', ha⟩ := withProfile_next.1 ha
  obtain ⟨c', hcomp', ha⟩ := withComp_next.1 ha
  obtain rfl : p = p' := Option.some.inj (hp.symm.trans hp')
  obtain rfl : c = c' := Option.some.inj (hcomp.symm.trans hcomp')
  cases ha
  cases hn : scanNext p.linesPerDisplay (stageShape c stage) ⟨n, w, offset⟩ with
  | some r =>
    simp only [afterScanLine, hn]
    exact hs.of_event hrun rfl rfl ⟨{ hframe with }, p, c, hp, hcomp, scanPlace_next (hok stage) hplace hn⟩ nofun hm
  | none =>
    simp only [afterScanLine, hn, afterStage]
    cases stage with
    | three =>
      exact hs.of_event hrun rfl rfl (phaseOk_idle rfl ⟨rfl, hframe.pwr, hframe.failed, fun _ => hframe.status⟩) nofun rfl
    | one =>
      by_cases hr : 1 ≤ c.stage2Repeat
      · simp only [if_pos hr]
        exact hs.of_event hrun rfl rfl ⟨{ hframe with }, rfl, c, hcomp, Nat.le_refl 1, hr⟩ nofun hm
      · simp only [if_neg hr]
        exact hs.of_event hrun rfl rfl (phaseOk_stageStart rfl { hframe with } hp hcomp (hok .three)) nofun hm

theorem passRow_advances {op : FrameOp} {j : Nat} {half : Half} {row : Nat} {tr : List Event} {x : Option Bool}
    (hc : s.ctl = .passRow op j half row)
    (ha : advanceOperation { s with line := none, trace := tr, xportEn := x } = .next t) : t.Inv := by
  obtain ⟨hframe, -, c, -, hcomp, h1, hj, -⟩ := hs.phase_at hc
  simp only [advanceOperation, hc] at ha
  obtain ⟨p, hp, ha⟩ := withProfile_next.1 ha
  split at ha <;> cases ha
  · exact hs.of_event hrun rfl rfl ⟨{ hframe with }, p, c, hp, hcomp, h1, hj, ‹_›⟩ nofun hm
  · exact hs.of_event hrun rfl rfl ⟨{ hframe with }, rfl, c, hcomp, h1, hj⟩ nofun hm

/-! ## The timer of a timed pass -/

variable {s1 u : State} {i : Instr} (hf : fetchOperation s = .run i s1) (he : exec i s1 = .next u)
  (ha : advance s u = .next t) (hl : s.line = none)
include hf he ha hl

theorem passArm_inv {op : FrameOp} {j : Nat} {half : Half} (hc : s.ctl = .passArm op j half) : t.Inv := by
  obtain ⟨hframe, -, c, hcomp, h1, hj⟩ := hs.phase_at hc
  obtain ⟨p, hp, hrow⟩ := hs.profile (hs.running hrun)
  have hpos : 0 < p.linesPerDisplay := by rw [hrow]; exact linesPerDisplay_pos _
  simp only [fetchOperation, hc] at hf
  obtain ⟨_, -, hf⟩ := fetchWithComp_run.1 hf
  cases hf
  cases he
  replace ha := advance_event hrun hl ha rfl
  simp only [advanceOperation, State.emit_ctl, hc] at ha
  cases ha
  exact hs.of_event hrun hl rfl ⟨{ hframe with }, p, c, hp, hcomp, h1, hj, hpos⟩ nofun hm

omit hm in
theorem passQuery_inv {op : FrameOp} {j : Nat} {half : Half} (hc : s.ctl = .passQuery op j half) : t.Inv := by
  obtain ⟨hframe, -, c, hcomp, h1, hj⟩ := hs.phase_at hc
  obtain ⟨p, hp, hrow⟩ := hs.profile (hs.running hrun)
  have hpos : 0 < p.linesPerDisplay := by rw [hrow]; exact linesPerDisplay_pos _
  simp only [fetchOperation, hc] at hf
  cases hf
  obtain ⟨tr, o, l, m, rfl, -⟩ := exec_event rfl he
  replace ha := advance_event hrun hl ha rfl
  simp only [advanceOperation, hc] at ha
  obtain ⟨rem, -, ha⟩ := testSample_next.1 ha
  obtain ⟨c', hcomp', ha⟩ := withComp_next.1 ha
  obtain rfl : c = c' := Option.some.inj (hcomp.symm.trans hcomp')
  cases ha
  unfold afterQuery
  split
  · exact hs.of_event hrun hl rfl ⟨{ hframe with }, p, c, hp, hcomp, h1, hj, hpos⟩ nofun rfl
  · cases half with
    | first => exact hs.of_event hrun hl rfl ⟨{ hframe with }, hl, c, hcomp, h1, hj⟩ nofun rfl
    | second =>
      by_cases hlt : j < c.stage2Repeat
      · simp only [if_pos hlt]
        exact hs.of_event hrun hl rfl ⟨{ hframe with }, hl, c, hcomp, Nat.succ_pos j, hlt⟩ nofun rfl
      · simp only [if_neg hlt]
        exact hs.of_event hrun hl rfl
          (phaseOk_stageStart rfl { hframe with } hp hcomp (hs.stageShape_ok hcomp .three)) nofun rfl

end

/-! ## The four events of a line -/

section
variable {s s1 u t : State}

/-- A Line that begins leaves its payload in `LB` and the transport enabled (43 R190, R200, R201). -/
theorem lineStarts_inv {row : LineRow} {data : Option (List Byte)} {fixed border : Byte} {pol : Polarity} (hs : s.Inv)
    (hrun : s.ctl ≠ .idle) (hl : s.line = none) (hid : s.ctl ≠ .vfId true)
    (h1 : s1 = { s with pwr := s1.pwr, oracle := s1.oracle })
    (he : execLineData row data fixed pol border s1 = .next u) (ha : advance s u = .next t)
    (phase : ∀ tr lb, ({ s1 with trace := tr, xportEn := some true, lb := lb, line := some .send } : State).PhaseOk) :
    t.Inv := by
  rw [h1] at he phase
  obtain ⟨p, hp, hdata, -, rfl⟩ := execLineData_next.1 he
  rw [advance_lineBegun hrun hl (Option.some_ne_none _)] at ha
  cases ha
  have hlen := lineBytes_length hdata s.cfg row fixed pol border
  have hsize : s.lbSize = scratchSize p := hs.handle.lb_size p hp
  have hread := Memory.readList_writeList s.lb 0 (lineBytes s.cfg p row data fixed pol border)
  rw [hlen] at hread
  have spare : ∀ c ∈ Memory.writeList s.lb 0 (lineBytes s.cfg p row data fixed pol border), c.1 + 1 < s.lbSize := by
    intro c hmem
    rcases Memory.mem_writeList hmem with hold | ⟨-, hnew⟩
    · exact hs.handle.lb_spare c hold
    · rw [hlen, payloadLength] at hnew
      rw [hsize, scratchSize]
      omega
  exact
    { memory := ⟨Memory.wf_writeList 0 _ hs.memory.1, hs.memory.2⟩
      handle := { hs.handle with lb_spare := spare }
      running := fun _ => hs.running hrun
      phase := phase _ _
      sampled := sampledOk_of_none hid (hs.sampled.eq_none hid)
      line := ⟨fun _ => rfl, fun _ => ⟨p, _, hp, hread⟩⟩ }

/-- Inside a Line the place of the operation stays (43 R190). -/
theorem phaseOk_in_line {a b : LinePhase} (hs : s.Inv) (hl : s.line = some a) (tr : List Event) :
    ({ s with trace := tr, line := some b } : State).PhaseOk := by
  have hin : s.line ≠ none := by rw [hl]; nofun
  rcases hs.ctl_in_line hin with ⟨k, hc⟩ | ⟨op, stage, n, w, offset, hc⟩ | ⟨op, j, half, row, hc⟩
  · obtain ⟨⟨p, hp, hk, hline⟩, -⟩ := hs.phase_at hc
    exact phaseOk_pdFlush hc hp hk (fun _ => hline hin) (hs.pwr_pdFlush hc fun h => hin h.2) nofun
  · obtain ⟨hframe, hscan⟩ := hs.phase_at hc
    simp only [State.PhaseOk, hc]
    exact ⟨{ hframe with }, hscan⟩
  · obtain ⟨hframe, hpass⟩ := hs.phase_at hc
    simp only [State.PhaseOk, hc]
    exact ⟨{ hframe with }, hpass⟩

/-- The last three events of a Line keep the invariant; after the third the operation moves on. -/
theorem line_inv {phase : LinePhase} {i : Instr} (hs : s.Inv) (hl : s.line = some phase)
    (hf : fetchLine phase s = .run i s1) (he : exec i s1 = .next u) (ha : advance s u = .next t) : t.Inv := by
  have hin : s.line ≠ none := by rw [hl]; nofun
  have hctl := hs.ctl_in_line hin
  obtain ⟨hrun, hid⟩ : s.ctl ≠ .idle ∧ s.ctl ≠ .vfId true := by
    rcases hctl with ⟨_, hc⟩ | ⟨_, _, _, _, _, hc⟩ | ⟨_, _, _, _, hc⟩ <;> rw [hc] <;> exact ⟨nofun, nofun⟩
  have hm := hs.sampled.eq_none hid
  have stays : ∀ (tr : List Event) (b : LinePhase), b ≠ .send → ({ s with trace := tr, line := some b } : State).Inv :=
    fun tr b hb => hs.of_frame rfl hs.running (phaseOk_in_line hs hl tr) (sampledOk_of_none hid hm)
      ⟨fun _ => hs.line.1 hin, fun h => absurd (Option.some.inj h) hb⟩
  simp only [advance, hl] at ha
  cases phase with
  | send =>
    obtain ⟨p, -, hf⟩ := fetchWithProfile_run.1 hf
    split at hf
    · cases hf
    · cases hf; cases he; cases ha
      exact stays _ .outputEnable nofun
  | outputEnable =>
    cases hf; cases he; cases ha
    exact stays _ .disable nofun
  | disable =>
    cases hf; cases he
    rcases hctl with ⟨k, hc⟩ | ⟨op, stage, n, w, offset, hc⟩ | ⟨op, j, half, row, hc⟩
    · have hpwr := hs.pwr_pdFlush hc fun h => hin h.2
      exact pdFlush_advances hs hrun hm hc (hpwr ▸ ha)
    · exact scan_advances hs hrun hm hc ha
    · exact passRow_advances hs hrun hm hc ha

end

end Sys2Proof.Machine
end

section
/-! SUPPORT. Every instruction the machine runs keeps the invariant. -/

namespace Sys2Proof.Machine

section
variable {s s1 u t : State} {i : Instr} (hs : s.Inv) (hrun : s.ctl ≠ .idle) (hl : s.line = none)
  (hf : fetchOperation s = .run i s1) (he : exec i s1 = .next u) (ha : advance s u = .next t)
include hs hrun hl hf he ha

theorem pdFlush_inv {k : Nat} (hm : s.sampled = Sampled.none) (hc : s.ctl = .pdFlush k) : t.Inv := by
  simp only [fetchOperation, hc] at hf
  obtain ⟨p, hp, hf⟩ := fetchWithProfile_run.1 hf
  obtain ⟨hi, h1⟩ := fetchAt_run.1 hf
  obtain rfl : s1 = { s with pwr := .poweringDown } := by
    rw [h1]
    split
    · rw [hc]
    · rw [← hs.pwr_pdFlush hc fun h => absurd h.1 ‹_›]
  rcases pdFlushCode_cases hi with ⟨hevent, hsample⟩ | ⟨hclass, heven, border, rfl⟩
  · obtain ⟨tr, o, l, m, rfl, hsame⟩ := exec_event hevent he
    obtain rfl := hsame hsample
    replace ha := advance_event hrun hl ha rfl
    rw [hl] at ha
    exact pdFlush_advances hs hrun hm hc ha
  · obtain ⟨hk, -⟩ := List.getElem?_eq_some_iff.1 hi
    exact lineStarts_inv hs hrun hl (by rw [hc]; nofun) rfl he ha fun _ _ =>
      phaseOk_pdFlush hc hp hk (fun _ => ⟨hclass, heven⟩) rfl nofun

theorem scan_inv {op : FrameOp} {stage : Stage} {n : Nat} {w : Int} {offset : Nat}
    (hc : s.ctl = .scan op stage n w offset) : t.Inv := by
  obtain ⟨hframe, hscan⟩ := hs.phase_at hc
  simp only [fetchOperation, hc] at hf
  obtain ⟨p, -, hf⟩ := fetchWithProfile_run.1 hf
  obtain ⟨c, -, hf⟩ := fetchWithComp_run.1 hf
  obtain ⟨⟨row, data, fixed, pol, border, rfl⟩, h1⟩ := fetchScan_run hf
  generalize s1.oracle = o at h1
  subst h1
  refine lineStarts_inv hs hrun hl (by rw [hc]; nofun) rfl he ha fun _ _ => ?_
  simp only [State.PhaseOk, hc]
  exact ⟨{ hframe with }, hscan⟩

theorem passRow_inv {op : FrameOp} {j : Nat} {half : Half} {row : Nat}
    (hc : s.ctl = .passRow op j half row) : t.Inv := by
  obtain ⟨hframe, hpass⟩ := hs.phase_at hc
  simp only [fetchOperation, hc] at hf
  cases hf
  refine lineStarts_inv hs hrun hl (by rw [hc]; nofun) rfl he ha fun _ _ => ?_
  simp only [State.PhaseOk, hc]
  exact ⟨{ hframe with }, hpass⟩

/-- The instruction at every place of the pseudocode keeps the invariant (10 R27). -/
theorem operation_inv : t.Inv := by
  by_cases hid : s.ctl = .vfId true
  · exact vfId_inv hs hrun hl hf he ha hid
  have hm := hs.sampled.eq_none hid
  cases hc : s.ctl with
  | idle => exact absurd hc hrun
  | puPins k => exact puPins_inv hs hrun hl hf he ha hm hc
  | puBusy => exact puBusy_inv hs hrun hl hf he ha hc
  | puWait => exact puWait_inv hs hrun hl hf he ha hm hc
  | vfId second => exact vfId_inv hs hrun hl hf he ha hc
  | vfBreakage k => exact vfBreakage_inv hs hrun hl hf he ha hm hc
  | vfInit k => exact vfInit_inv hs hrun hl hf he ha hm hc
  | vfPump attempt k => exact vfPump_inv hs hrun hl hf he ha hm hc
  | rdFinish k => exact rdFinish_inv hs hrun hl hf he ha hm hc
  | pdFlush k => exact pdFlush_inv hs hrun hl hf he ha hm hc
  | pdCheck k => exact pdCheck_inv hs hrun hl hf he ha hm hc
  | pdRegs k => exact pdRegs_inv hs hrun hl hf he ha hm hc
  | pdFinal k => exact pdFinal_inv hs hrun hl hf he ha hm hc
  | pdPulses pulse k => exact pdPulses_inv hs hrun hl hf he ha hm hc
  | scan op stage n w offset => exact scan_inv hs hrun hl hf he ha hc
  | passArm op j half => exact passArm_inv hs hrun hm hf he ha hl hc
  | passRow op j half row => exact passRow_inv hs hrun hl hf he ha hc
  | passQuery op j half => exact passQuery_inv hs hrun hf he ha hl hc

end

/-- One instruction keeps the invariant: a wait, an event of a Line, a command of the host, or an event of an operation. -/
theorem runInstruction_inv {s t : State} (hs : s.Inv) (h : runInstruction s = .next t) : t.Inv := by
  rcases runInstruction_next_cases h with ⟨-, rfl⟩ | ⟨i, s1, u, hf, he, ha⟩
  · exact hs
  cases hl : s.line with
  | some phase => exact line_inv hs hl (fetch_line hl ▸ hf) he ha
  | none =>
    by_cases hc : s.ctl = .idle
    · obtain ⟨w, rest, -, hd, rfl⟩ := fetchHost_run (fetch_idle hc hl ▸ hf)
      rw [advance_idle hc hl] at ha
      cases ha
      exact exec_host_inv (decode_host_isHostCommand hd) (hs.of_quiet ⟨hc, hl⟩ rfl) he
    · exact operation_inv hs hc hl (fetch_operation hc hl ▸ hf) he ha

end Sys2Proof.Machine
end

section
/-! SUPPORT. What the commands of the host leave unchanged, who writes `status`, and what uses the transport. -/

namespace Sys2Proof.Machine

/-! ## The frame of the host's commands -/

@[simp] theorem openWith_img (p : PanelProfile) (s : State) : (openWith p s).img = s.img := by
  simp only [openWith]
  split_ifs <;> rfl

/-- OPEN leaves `status` without a value, or as it is where no handle comes of it (40 R122). -/
theorem openWith_status (p : PanelProfile) (s : State) : (openWith p s).status = none ∨ (openWith p s).status = s.status := by
  simp only [openWith]
  split_ifs
  · exact .inl rfl
  · exact .inr rfl
  · exact .inr rfl

/-- The host's commands but OPEN and CLOSE leave the handle's registers and `LB` alone; only SET_TEMPERATURE selects a
compensation profile, only BEGIN and END write `status`, and only PAINT presents an image. -/
theorem exec_host_frame {i : Instr} {s u : State} (hi : isHostCommand i = true) (hopen : ∀ sel, i ≠ .openPanel sel)
    (hclose : i ≠ .close) (h : exec i s = .next u) :
    u = { s with
          ctl := u.ctl, pwr := u.pwr, status := u.status, fromFailed := u.fromFailed, band := u.band, comp := u.comp
          compValid := u.compValid, img := u.img, result := u.result, oracle := u.oracle } ∧
      ((∀ celsius, i ≠ .setTemperature celsius) → u.band = s.band ∧ u.comp = s.comp ∧ u.compValid = s.compValid) ∧
      (i ≠ .begin → i ≠ .endPower → u.status = s.status) ∧ ((∀ image, i ≠ .paint image) → u.img = s.img) := by
  cases i
  case openPanel sel => exact absurd rfl (hopen sel)
  case close => exact absurd rfl hclose
  case setTemperature celsius =>
    obtain ⟨-, -, p, -, rfl⟩ := execSetTemperature_next.1 h
    exact ⟨rfl, fun hne => absurd rfl (hne celsius), fun _ _ => rfl, fun _ => rfl⟩
  case status =>
    obtain ⟨-, -, ⟨v, -, rfl⟩ | ⟨-, rfl⟩⟩ := execStatus_next.1 h <;>
      exact ⟨rfl, fun _ => ⟨rfl, rfl, rfl⟩, fun _ _ => rfl, fun _ => rfl⟩
  case begin =>
    obtain ⟨-, -, rfl⟩ := execBegin_next.1 h
    exact ⟨rfl, fun _ => ⟨rfl, rfl, rfl⟩, fun hne _ => absurd rfl hne, fun _ => rfl⟩
  case endPower =>
    obtain ⟨-, -, rfl⟩ := execEnd_next.1 h
    exact ⟨rfl, fun _ => ⟨rfl, rfl, rfl⟩, fun _ hne => absurd rfl hne, fun _ => rfl⟩
  case clear =>
    obtain ⟨-, -, -, c, -, -, rfl⟩ := execClear_next.1 h
    exact ⟨rfl, fun _ => ⟨rfl, rfl, rfl⟩, fun _ _ => rfl, fun _ => rfl⟩
  case paint image =>
    obtain ⟨-, -, -, c, -, -, p, -, -, rfl⟩ := execPaint_next.1 h
    exact ⟨rfl, fun _ => ⟨rfl, rfl, rfl⟩, fun _ _ => rfl, fun hne => absurd rfl (hne image)⟩
  all_goals cases hi

/-! ## The frame of the two spaces -/

/-- `LB` is written by LINE_DATA, made by OPEN and dropped by CLOSE (43 R201, 40 R122, R123). -/
theorem exec_lb {i : Instr} {s t : State} (hopen : ∀ sel, i ≠ .openPanel sel) (hclose : i ≠ .close)
    (hline : ∀ row data fixed pol border, i ≠ .lineData row data fixed pol border) (h : exec i s = .next t) :
    t.lb = s.lb := by
  cases hi : isHostCommand i with
  | true => rw [(exec_host_frame hi hopen hclose h).1]
  | false =>
    rcases isEvent_or_lineData hi with hevent | ⟨row, data, fixed, pol, border, rfl⟩
    · obtain ⟨tr, o, l, m, rfl, -⟩ := exec_event hevent h
      rfl
    · exact absurd rfl (hline row data fixed pol border)

/-- `IMG` is presented by PAINT (42 R171). -/
theorem exec_img {i : Instr} {s t : State} (hpaint : ∀ image, i ≠ .paint image) (h : exec i s = .next t) :
    t.img = s.img := by
  cases hi : isHostCommand i with
  | false => rw [exec_notHost_frame hi h]
  | true =>
    by_cases hopen : ∃ sel, i = .openPanel sel
    · obtain ⟨sel, rfl⟩ := hopen
      obtain ⟨-, -, ⟨-, rfl⟩ | ⟨p, -, rfl⟩⟩ := execOpen_next.1 h
      · rfl
      · exact openWith_img p s
    by_cases hclose : i = .close
    · subst hclose
      obtain ⟨-, -, rfl⟩ := execClose_next.1 h
      rfl
    obtain ⟨-, -, -, himg⟩ := exec_host_frame hi (fun sel heq => hopen ⟨sel, heq⟩) hclose h
    exact himg hpaint

/-! ## Where a command of the host starts an operation -/

/-- A command of the host that starts an operation leaves it at its first event. -/
theorem exec_host_starts_at {i : Instr} {s u : State} (hi : isHostCommand i = true) (h : exec i s = .next u)
    (hu : ¬ u.Quiet) : u.ctl = .puPins 0 ∨ u.ctl = .pdFlush 0 ∨ ∃ op c, u.ctl = stageStart op c .one := by
  cases i
  case openPanel sel => exact absurd (execOpen_trace h).1 hu
  case close => exact absurd (exec_without_event (.inl rfl) h).1 hu
  case setTemperature celsius => exact absurd (exec_without_event (.inr (.inl ⟨celsius, rfl⟩)) h).1 hu
  case status => exact absurd (exec_without_event (.inr (.inr rfl)) h).1 hu
  case begin =>
    obtain ⟨-, -, rfl⟩ := execBegin_next.1 h
    exact .inl rfl
  case endPower =>
    obtain ⟨-, -, rfl⟩ := execEnd_next.1 h
    exact .inr (.inl rfl)
  case clear =>
    obtain ⟨-, -, -, c, -, -, rfl⟩ := execClear_next.1 h
    exact .inr (.inr ⟨_, c, rfl⟩)
  case paint image =>
    obtain ⟨-, -, -, c, -, -, p, -, -, rfl⟩ := execPaint_next.1 h
    exact .inr (.inr ⟨_, c, rfl⟩)
  all_goals cases hi

/-! ## The registers of the handle and of the compensation profile -/

/-- The registers that OPEN and CLOSE write (10 R21, R23, R29, R32). -/
def State.handleRegs (s : State) : Option PanelProfile × Bool × Bool × Nat :=
  (s.profile, s.handleValid, s.timerValid, s.lbSize)

/-- The registers that SET_TEMPERATURE writes besides (10 R22). -/
def State.compRegs (s : State) : Option CompProfile × Option Band × Bool := (s.comp, s.band, s.compValid)

theorem handleRegs_ne {s t : State}
    (h : t.profile ≠ s.profile ∨ t.handleValid ≠ s.handleValid ∨ t.timerValid ≠ s.timerValid ∨ t.lbSize ≠ s.lbSize) :
    t.handleRegs ≠ s.handleRegs := by
  intro heq
  simp only [State.handleRegs, Prod.mk.injEq] at heq
  obtain ⟨h1, h2, h3, h4⟩ := heq
  exact h.elim (· h1) fun h => h.elim (· h2) fun h => h.elim (· h3) (· h4)

theorem compRegs_ne {s t : State} (h : t.comp ≠ s.comp ∨ t.band ≠ s.band ∨ t.compValid ≠ s.compValid) :
    t.compRegs ≠ s.compRegs := by
  intro heq
  simp only [State.compRegs, Prod.mk.injEq] at heq
  obtain ⟨h1, h2, h3⟩ := heq
  exact h.elim (· h1) fun h => h.elim (· h2) (· h3)

/-- A running operation writes none of them. -/
theorem step_running_regs {s t : State} (hq : ¬ s.Quiet) (h : step s = .next t) :
    t.handleRegs = s.handleRegs ∧ t.compRegs = s.compRegs := by
  rw [step_running_frame hq h]
  exact ⟨rfl, rfl⟩

/-! ## The writes of `status` -/

/-- A write of `status` at the place `c` of an operation, `failed` being `from_failed`, that leaves the state `t`: a failed check
of BEGIN, BEGIN's end, or a failed re-check of END (41 R157). -/
def StatusWrite (c : Ctl) (failed : Bool) (t : State) : Prop :=
  (∃ kind, t.status = some (statusOf kind) ∧ t.pwr = .failed kind ∧ t.fromFailed = true ∧ t.ctl = .pdFlush 0 ∧
    ((kind = .unsupportedCOG ∧ c = .vfId true) ∨ (kind = .panelBroken ∧ ∃ k, c = .vfBreakage k) ∨
      (kind = .dcFailed ∧ ∃ a k, c = .vfPump a k ∧ 4 ≤ a))) ∨
  ((∃ k, c = .rdFinish k) ∧ t.status = some .ok ∧ t.ctl = .idle) ∨
  ((∃ k, c = .pdCheck k) ∧ failed = false ∧ t.status = some .dcFailed ∧ t.ctl = .pdFinal 0)

@[simp] theorem afterScanLine_status (p : PanelProfile) (c : CompProfile) (op : FrameOp) (stage : Stage) (q : ScanPos)
    (t : State) : (afterScanLine p c op stage q t).status = t.status := by
  unfold afterScanLine
  split
  · rfl
  · cases stage <;> rfl

@[simp] theorem afterQuery_status (c : CompProfile) (op : FrameOp) (j : Nat) (half : Half) (rem : Nat) (t : State) :
    (afterQuery c op j half rem t).status = t.status := by
  unfold afterQuery
  split
  · rfl
  · cases half <;> rfl

/-- A straight piece changes `status` only by what follows it. -/
theorem afterPiece_status {code : List Instr} {k : Nat} {stay : Nat → Ctl} {u t : State} {done : Result} {P : Prop}
    (h : afterPiece code k stay u done = .next t) (hdone : done = .next t → t.status = u.status ∨ P) :
    t.status = u.status ∨ P := by
  rcases afterPiece_next h with rfl | h
  · exact .inl rfl
  · exact hdone h

/-- The move of an operation writes `status` only at the places of 41 R157. -/
theorem advanceOperation_status {u t : State} (h : advanceOperation u = .next t) :
    t.status = u.status ∨ StatusWrite u.ctl u.fromFailed t := by
  cases hc : u.ctl <;> simp only [advanceOperation, hc] at h
  case idle | puWait | passArm => cases h; exact .inl rfl
  case puBusy =>
    obtain ⟨busy, -, h⟩ := testSample_next.1 h
    split at h <;> cases h <;> exact .inl rfl
  case vfId second =>
    cases second with
    | false => cases h; exact .inl rfl
    | true =>
      obtain ⟨id2, -, h⟩ := testSample_next.1 h
      split at h <;> cases h
      · exact .inl rfl
      · exact .inr (.inl ⟨.unsupportedCOG, rfl, rfl, rfl, rfl, .inl ⟨rfl, rfl⟩⟩)
  case vfBreakage k =>
    refine afterPiece_status h fun h => ?_
    obtain ⟨brk, -, h⟩ := testSample_next.1 h
    split at h <;> cases h
    · exact .inl rfl
    · exact .inr (.inl ⟨.panelBroken, rfl, rfl, rfl, rfl, .inr (.inl ⟨rfl, k, rfl⟩)⟩)
  case vfPump attempt k =>
    refine afterPiece_status h fun h => ?_
    obtain ⟨dc, -, h⟩ := testSample_next.1 h
    split at h
    · cases h; exact .inl rfl
    · split at h <;> cases h
      · exact .inl rfl
      · exact .inr (.inl ⟨.dcFailed, rfl, rfl, rfl, rfl, .inr (.inr ⟨rfl, attempt, k, rfl, Nat.le_of_not_lt ‹_›⟩)⟩)
  case rdFinish k =>
    refine afterPiece_status h fun h => ?_
    cases h
    exact .inr (.inr (.inl ⟨⟨k, rfl⟩, rfl, rfl⟩))
  case pdCheck k =>
    refine afterPiece_status h fun h => ?_
    obtain ⟨dc, -, h⟩ := testSample_next.1 h
    split at h <;> cases h
    · exact .inl rfl
    · cases hfailed : u.fromFailed
      · exact .inr (.inr (.inr ⟨⟨k, rfl⟩, rfl, by simp [hfailed], rfl⟩))
      · exact .inl (by simp [hfailed])
  case puPins | pdRegs | pdFinal =>
    refine afterPiece_status h fun h => ?_
    cases h
    exact .inl rfl
  case vfInit | pdFlush =>
    obtain ⟨p, -, h⟩ := withProfile_next.1 h
    refine afterPiece_status h fun h => ?_
    cases h
    exact .inl rfl
  case pdPulses =>
    refine afterPiece_status h fun h => ?_
    split at h <;> cases h <;> exact .inl rfl
  case scan =>
    obtain ⟨p, -, h⟩ := withProfile_next.1 h
    obtain ⟨c, -, h⟩ := withComp_next.1 h
    cases h
    exact .inl (afterScanLine_status _ _ _ _ _ _)
  case passRow =>
    obtain ⟨p, -, h⟩ := withProfile_next.1 h
    split at h <;> cases h <;> exact .inl rfl
  case passQuery =>
    obtain ⟨rem, -, h⟩ := testSample_next.1 h
    obtain ⟨c, -, h⟩ := withComp_next.1 h
    cases h
    exact .inl (afterQuery_status _ _ _ _ _ _)

/-- A step of a running operation writes `status` only at the places of 41 R157. -/
theorem step_running_status {s t : State} (hq : ¬ s.Quiet) (h : step s = .next t) :
    t.status = s.status ∨ StatusWrite s.ctl s.fromFailed t := by
  obtain ⟨i, s1, u, hf, hi, he, ha⟩ := step_running_cases hq h
  have hu : u.status = s.status ∧ u.ctl = s.ctl ∧ u.fromFailed = s.fromFailed := by
    rw [exec_notHost_frame hi he, fetch_frame hf]
    exact ⟨rfl, rfl, rfl⟩
  obtain ⟨hstatus, hctl, hfailed⟩ := hu
  rw [← hstatus, ← hctl, ← hfailed]
  rcases advance_running hq ha with ⟨l, rfl⟩ | ha
  · exact .inl rfl
  · exact advanceOperation_status (u := { u with line := none }) ha

/-- The first event of an operation does not write `status`. -/
theorem first_event_status {i : Instr} {s u t : State} (hi : isHostCommand i = true) (he : exec i s = .next u)
    (hu : ¬ u.Quiet) (h : step u = .next t) : t.status = u.status := by
  rcases step_running_status hu h with h | h
  · exact h
  · rcases exec_host_starts_at hi he hu with hc | hc | ⟨op, c, hc⟩ <;> simp [StatusWrite, hc, stageStart] at h

/-! ## What uses the transport -/

theorem usesTransport_host {i : Instr} (hi : isHostCommand i = true) : usesTransport i = false := by
  cases i
  case openPanel | close | setTemperature | status | begin | endPower | clear | paint => rfl
  all_goals cases hi

/-- Of the events that hand bytes to the transport, none stands where the transport may be disabled (10 R30). -/
theorem fetchOperation_transport {s s1 : State} {i : Instr} (hs : s.Inv) (hf : fetchOperation s = .run i s1)
    (hu : usesTransport i = true) : s.xportEn = some true := by
  have not_in : ∀ {code : List Instr} {k : Nat} {s' : State}, fetchAt code k s' = .run i s1 →
      (∀ j ∈ code, usesTransport j = false) → s.xportEn = some true := fun hf hcode =>
    absurd hu (by simp [hcode i (List.mem_of_getElem? (fetchAt_run.1 hf).1)])
  cases hc : s.ctl <;> simp only [fetchOperation, hc] at hf
  case idle => cases hf
  case puBusy | puWait | vfId =>
    obtain ⟨-, hx⟩ := hs.phase_at hc
    exact hx
  case vfBreakage | vfInit | rdFinish =>
    obtain ⟨-, -, hx⟩ := hs.phase_at hc
    exact hx
  case vfPump =>
    obtain ⟨-, -, -, -, hx⟩ := hs.phase_at hc
    exact hx
  case pdRegs =>
    obtain ⟨-, -, -, hx⟩ := hs.phase_at hc
    exact hx
  case pdCheck k =>
    obtain ⟨-, -, -, hx⟩ := hs.phase_at hc
    cases k with
    | zero => cases hf; cases hu
    | succ k => exact hx (Nat.succ_pos k)
  case puPins | pdFinal | pdPulses => exact not_in hf (by decide)
  case pdFlush =>
    obtain ⟨p, -, hf⟩ := fetchWithProfile_run.1 hf
    exact not_in hf (by cases p.sizeClass <;> simp [pdFlushCode, dummyLine, usesTransport])
  case scan =>
    obtain ⟨p, -, hf⟩ := fetchWithProfile_run.1 hf
    obtain ⟨c, -, hf⟩ := fetchWithComp_run.1 hf
    obtain ⟨⟨row, data, fixed, pol, border, rfl⟩, -⟩ := fetchScan_run hf
    cases hu
  case passArm =>
    obtain ⟨c, -, hf⟩ := fetchWithComp_run.1 hf
    cases hf
    cases hu
  case passRow | passQuery =>
    cases hf
    cases hu

/-! ## The COG reads -/

section
variable {s : State} {v : Byte} {rest : List Byte} (h : s.oracle.cog = v :: rest)
include h

theorem askCog_listed : s.oracle.askCog = v := by simp [Oracle.askCog, h]

theorem cogRead_listed (c : CogReadCmd) : s.cogRead c = { s with
    trace := s.trace ++ [.cogRead c v], oracle := { s.oracle with cog := rest, draws := s.oracle.draws + 1 } } := by
  simp [State.cogRead, State.emit, Oracle.afterCog, askCog_listed h, h]

end

end Sys2Proof.Machine
end

section
/-! Proofs of the statements of the family 10_state.md. -/

namespace Sys2Proof.Machine

/-- Settles O7: a step is one instruction, or a command and the first instruction of the operation it starts, and every
instruction keeps the invariant. -/
theorem stepKeepsInvariant : Obligations.StepKeepsInvariant := by
  intro s t hs h
  rcases step_next_cases h with ⟨h, -⟩ | ⟨u, -, -, hu, ht⟩
  · exact runInstruction_inv hs h
  · exact runInstruction_inv (runInstruction_inv hs hu) ht

/-- Settles O9: a host command is none of these instructions; inside a Line the transport is enabled, and at every place of an
operation the invariant says so where a transfer stands; while an operation runs a handle exists, and with it the timer. -/
theorem interfaceUsedWhenEnabled : Obligations.InterfaceUsedWhenEnabled := by
  intro s s1 i hs hf
  obtain ⟨hxport, hhandle, htimer⟩ :
      s1.xportEn = s.xportEn ∧ s1.handleValid = s.handleValid ∧ s1.timerValid = s.timerValid := by
    rw [fetch_frame hf]
    exact ⟨rfl, rfl, rfl⟩
  rw [hxport, hhandle, htimer]
  by_cases hq : s.Quiet
  · rw [fetch_idle hq.1 hq.2] at hf
    obtain ⟨w, rest, -, hd, -⟩ := fetchHost_run hf
    have hi := decode_host_isHostCommand hd
    refine ⟨fun hu => ?_, ?_, ?_⟩
    · rw [usesTransport_host hi] at hu
      cases hu
    · rintro ⟨p, b, rfl⟩; cases hi
    · rintro ⟨ms, rfl⟩; cases hi
  · cases hl : s.line with
    | none =>
      have hrun : s.ctl ≠ .idle := fun hc => hq ⟨hc, hl⟩
      have hh := hs.running hrun
      rw [fetch_operation hrun hl] at hf
      exact ⟨fetchOperation_transport hs hf, fun _ => hh, fun _ => hs.handle.timer.trans hh⟩
    | some phase =>
      have hin : s.line ≠ none := by rw [hl]; nofun
      have hh : s.handleValid = true := hs.running fun hc => hin (hs.phase.idleOk hc).line
      exact ⟨fun _ => hs.line.1 hin, fun _ => hh, fun _ => hs.handle.timer.trans hh⟩

/-- Settles O54: by the frames of the host's commands and of the events, and outside its payload by LINE_DATA's one write. -/
theorem memoryFrame : Obligations.MemoryFrame := by
  intro i s t h
  refine ⟨fun hopen hclose hline a => ?_, ?_, fun hpaint a => ?_⟩
  · rw [exec_lb hopen hclose hline h]
  · rintro row data fixed pol border p rfl hp a ha
    obtain ⟨p', hp', hdata, -, rfl⟩ := execLineData_next.1 h
    obtain rfl : p = p' := Option.some.inj (hp.symm.trans hp')
    exact Memory.read_writeList_outside _ _ _ (.inr (by rwa [lineBytes_length hdata, Nat.zero_add]))
  · rw [exec_img hpaint h]

/-- Settles O56: a running operation writes none of these registers, and of the host's commands only the named ones do. -/
theorem profileAndCompWriters : Obligations.ProfileAndCompWriters := by
  intro s t h
  suffices hsuff : (t.handleRegs ≠ s.handleRegs → _) ∧ (t.compRegs ≠ s.compRegs → _) from
    ⟨fun hne => hsuff.1 (handleRegs_ne hne), fun hne => hsuff.2 (compRegs_ne hne)⟩
  by_cases hq : s.Quiet
  · rcases step_quiet_cases hq h with rfl | ⟨w, rest, i, u, hw, hd, he, hu⟩
    · exact ⟨fun hne => absurd rfl hne, fun hne => absurd rfl hne⟩
    · obtain ⟨hhandle, hcomp⟩ : t.handleRegs = u.handleRegs ∧ t.compRegs = u.compRegs := by
        rcases hu with ⟨-, rfl⟩ | ⟨hu, ht⟩
        · exact ⟨rfl, rfl⟩
        · exact step_running_regs hu ht
      rw [hhandle, hcomp]
      by_cases hopen : ∃ sel, i = .openPanel sel
      · obtain ⟨sel, rfl⟩ := hopen
        exact ⟨fun _ => ⟨hq, w, rest, hw, .inl ⟨sel, hd⟩⟩, fun _ => ⟨hq, w, rest, hw, .inl ⟨sel, hd⟩⟩⟩
      by_cases hclose : i = .close
      · subst hclose
        exact ⟨fun _ => ⟨hq, w, rest, hw, .inr hd⟩, fun _ => ⟨hq, w, rest, hw, .inr (.inl hd)⟩⟩
      obtain ⟨hframe, hselect, -, -⟩ :=
        exec_host_frame (decode_host_isHostCommand hd) (fun sel heq => hopen ⟨sel, heq⟩) hclose he
      refine ⟨fun hne => absurd (by rw [hframe]; rfl) hne, fun hne => ⟨hq, w, rest, hw, .inr (.inr ?_)⟩⟩
      by_contra hno
      obtain ⟨hband, hcomp, hvalid⟩ := hselect fun celsius heq => hno ⟨celsius, heq ▸ hd⟩
      exact hne (by rw [State.compRegs, hband, hcomp, hvalid]; rfl)
  · obtain ⟨hhandle, hcomp⟩ := step_running_regs hq h
    exact ⟨fun hne => absurd hhandle hne, fun hne => absurd hcomp hne⟩

/-- Settles O57: inside an operation by the places where the move writes `status`; at the issue of a command by what the command
writes, which its first event leaves. -/
theorem statusWriters : Obligations.StatusWriters := by
  intro s t h hne
  by_cases hq : s.Quiet
  · rcases step_quiet_cases hq h with rfl | ⟨w, rest, i, u, hw, hd, he, hu⟩
    · exact absurd rfl hne
    have hi := decode_host_isHostCommand hd
    have hlast : t.status = u.status := by
      rcases hu with ⟨-, rfl⟩ | ⟨hu, ht⟩
      · rfl
      · exact first_event_status hi he hu ht
    refine .inl ⟨hq, w, rest, hw, ?_⟩
    rw [hlast] at hne ⊢
    by_cases hopen : ∃ sel, i = .openPanel sel
    · obtain ⟨sel, rfl⟩ := hopen
      refine .inr (.inr (.inl ⟨sel, hd, ?_⟩))
      obtain ⟨-, -, ⟨-, rfl⟩ | ⟨p, -, rfl⟩⟩ := execOpen_next.1 he
      · exact absurd rfl hne
      · exact (openWith_status p _).resolve_right hne
    by_cases hclose : i = .close
    · subst hclose
      obtain ⟨-, -, rfl⟩ := execClose_next.1 he
      exact .inr (.inr (.inr ⟨hd, rfl⟩))
    by_cases hbegin : i = .begin
    · subst hbegin
      obtain ⟨-, -, rfl⟩ := execBegin_next.1 he
      exact .inl ⟨hd, rfl⟩
    by_cases hend : i = .endPower
    · subst hend
      obtain ⟨-, -, rfl⟩ := execEnd_next.1 he
      exact .inr (.inl ⟨hd, rfl⟩)
    obtain ⟨-, -, hsame, -⟩ := exec_host_frame hi (fun sel heq => hopen ⟨sel, heq⟩) hclose he
    exact absurd (hsame hbegin hend) hne
  · exact .inr ((step_running_status hq h).resolve_left hne)

/-- Settles O5: the reset state, field by field (10 R20). -/
theorem resetValues : Obligations.ResetValues :=
  ⟨rfl, rfl, rfl, rfl, rfl, rfl, rfl, rfl, rfl, rfl, rfl, rfl, rfl, rfl, rfl, fun _ => rfl, rfl⟩

/-- Settles O6: without a handle nothing of it is held, and the machine is idle with `pwr` Off; of the configuration only its
constraint is known (assumption 2). -/
theorem resetMeetsInvariant : Obligations.ResetMeetsInvariant where
  memory := reset_memoryOk
  handle := ⟨Config.platform.ok, rfl, rfl, nofun, nofun, nofun, rfl, rfl, nofun⟩
  running := fun hc => absurd rfl hc
  phase := phaseOk_idle rfl ⟨rfl, .inl rfl, rfl, nofun⟩
  sampled := sampledOk_of_none nofun rfl
  line := lineOk_of_none rfl

/-- Settles O49: each read appends its one event; with an answer listed, that is the answer the event and the sample hold. -/
theorem cogReadCommands : Obligations.CogReadCommands := by
  refine ⟨fun s ic hic => ?_, fun s v rest h => ⟨fun hc => ?_, fun hc => ?_, ?_, ?_⟩⟩
  · simp only [List.mem_cons, List.not_mem_nil, or_false] at hic
    rcases hic with rfl | rfl | rfl <;> exact ⟨_, _, rfl, rfl, rfl⟩
  · simp only [exec, execReadId, cogRead_listed h, askCog_listed h, if_pos hc]
  · simp only [exec, execReadId, cogRead_listed h, askCog_listed h, if_neg hc]
  · simp only [exec, execReadBreakage, cogRead_listed h, askCog_listed h]
  · simp only [exec, execReadDcdc, cogRead_listed h, askCog_listed h]

end Sys2Proof.Machine
end

section
/-! SUPPORT. The image of PAINT: what presents it, the row a nominal line reads or draws, and the first event of a line of a
block-scan stage. -/

namespace Sys2Proof.Machine

/-! ## The image and the configuration -/

/-- Beyond a list of bytes its space holds nothing (10 R20). -/
theorem Memory.read_ofList_beyond (bs : List Byte) {a : Nat} (h : bs.length ≤ a) : Memory.read (Memory.ofList bs) a = none :=
  Memory.read_writeList_outside [] 0 bs (.inr (by rwa [Nat.zero_add]))

@[simp] theorem openWith_cfg (p : PanelProfile) (s : State) : (openWith p s).cfg = s.cfg := by
  simp only [openWith]
  split_ifs <;> rfl

/-- No instruction writes the configuration (20 R63). -/
theorem exec_cfg {i : Instr} {s t : State} (h : exec i s = .next t) : t.cfg = s.cfg := by
  cases hi : isHostCommand i with
  | false => rw [exec_notHost_frame hi h]
  | true =>
    by_cases hopen : ∃ sel, i = .openPanel sel
    · obtain ⟨sel, rfl⟩ := hopen
      obtain ⟨-, -, ⟨-, rfl⟩ | ⟨p, -, rfl⟩⟩ := execOpen_next.1 h
      · rfl
      · exact openWith_cfg p s
    by_cases hclose : i = .close
    · subst hclose
      obtain ⟨-, -, rfl⟩ := execClose_next.1 h
      rfl
    rw [(exec_host_frame hi (fun sel heq => hopen ⟨sel, heq⟩) hclose h).1]

/-- A running operation writes neither (20 R62, R63). -/
theorem step_running_img_cfg {s t : State} (hq : ¬ s.Quiet) (h : step s = .next t) : t.img = s.img ∧ t.cfg = s.cfg := by
  rw [step_running_frame hq h]
  exact ⟨rfl, rfl⟩

/-! ## The image row of a nominal line -/

/-- A row of the panel is read from the image (42 R177). -/
theorem fetchImageLine_read {p : PanelProfile} {r : Nat} {s : State} {d : List Byte} (hr : r < p.linesPerDisplay)
    (hd : Memory.readList s.img (r * p.bytesPerLine) p.bytesPerLine = some d) (stage : Stage) :
    fetchImageLine p stage r s = .run (.lineData (.row r) (some d) 0x00 (stagePol stage) 0x00) s := by
  simp only [fetchImageLine, if_pos hr, hd]

/-- A row past the panel is drawn from the oracle (42 R177). -/
theorem fetchImageLine_drawn {p : PanelProfile} {r : Nat} (hr : p.linesPerDisplay ≤ r) (stage : Stage) (s : State) :
    fetchImageLine p stage r s =
      .run (.lineData (.row r) (some (Oracle.drawRowL p.bytesPerLine s.oracle).1) 0x00 (stagePol stage) 0x00)
        { s with oracle := (Oracle.drawRowL p.bytesPerLine s.oracle).2 } := by
  simp only [fetchImageLine, if_neg (Nat.not_lt.2 hr)]

/-- Where bytes are listed, those are drawn and the rest stays listed (44 R222 (a)). -/
theorem drawRowL_listed {o : Oracle} {d rest : List Byte} (h : o.rowL = d ++ rest) :
    (Oracle.drawRowL d.length o).1 = d ∧ (Oracle.drawRowL d.length o).2.rowL = rest := by
  induction d generalizing o with
  | nil => exact ⟨rfl, h⟩
  | cons b d ih =>
    obtain ⟨hbytes, hrest⟩ := ih (o := { o with rowL := o.rowL.tail, draws := o.draws + 1 }) (by simp [h])
    simp only [List.length_cons, Oracle.drawRowL, hbytes, hrest, and_true]
    simp [h]

/-- The bytes of a row of the panel are bytes of the image (20 R62). -/
theorem row_in_image {p : PanelProfile} {r b : Nat} (hr : r < p.linesPerDisplay) (hb : b < p.bytesPerLine) :
    r * p.bytesPerLine + b < imageLength p := by
  calc r * p.bytesPerLine + b < (r + 1) * p.bytesPerLine := by rw [Nat.succ_mul]; omega
    _ ≤ p.linesPerDisplay * p.bytesPerLine := Nat.mul_le_mul_right _ hr
    _ = imageLength p := Nat.mul_comm _ _

/-! ## The first event of a line of a block-scan stage -/

/-- Data fits where it has the length of a row (30 R99). -/
theorem dataFits_some {p : PanelProfile} {d : List Byte} : dataFits p (some d) = true ↔ d.length = p.bytesPerLine :=
  decide_eq_true_iff

/-- With the whole image there, an image line is a LINE_DATA whose data fits. -/
theorem fetchImageLine_fits {p : PanelProfile} {s : State} (himg : ∀ a < imageLength p, (Memory.read s.img a).isSome = true)
    (stage : Stage) (r : Nat) :
    ∃ row data fixed pol border o, dataFits p data = true ∧
      fetchImageLine p stage r s = .run (.lineData row data fixed pol border) { s with oracle := o } := by
  rcases Nat.lt_or_ge r p.linesPerDisplay with hr | hr
  · obtain ⟨d, hd⟩ := Memory.readList_isSome (m := s.img) fun b hb => himg _ (row_in_image hr hb)
    exact ⟨_, _, _, _, _, s.oracle, dataFits_some.2 (Memory.readList_length hd), fetchImageLine_read hr hd stage⟩
  · exact ⟨_, _, _, _, _, _, dataFits_some.2 (drawRowL_length _ _), fetchImageLine_drawn hr stage s⟩

/-- Whichever of the three kinds a scan line is (42 R176), it is a LINE_DATA whose data fits. -/
theorem fetchScan_fits {p : PanelProfile} {op : FrameOp} {s : State}
    (himg : op = .paint → ∀ a < imageLength p, (Memory.read s.img a).isSome = true)
    (c : CompProfile) (stage : Stage) (n : Nat) (w : Int) (offset : Nat) :
    ∃ row data fixed pol border o, dataFits p data = true ∧
      fetchScan p c op stage n w offset s = .run (.lineData row data fixed pol border) { s with oracle := o } := by
  simp only [fetchScan]
  split_ifs
  · exact ⟨_, _, _, _, _, s.oracle, rfl, rfl⟩
  · exact ⟨_, _, _, _, _, s.oracle, rfl, rfl⟩
  · cases op with
    | clear => exact ⟨_, _, _, _, _, s.oracle, rfl, rfl⟩
    | paint => exact fetchImageLine_fits (himg rfl) stage _

/-- The step at a place of a block-scan stage begins the line of that place (42 R174, 43 R190). -/
theorem step_scan_begins_line {s : State} {p : PanelProfile} {c : CompProfile} {op : FrameOp} {stage : Stage} {n : Nat} {w : Int}
    {offset : Nat} (hc : s.ctl = .scan op stage n w offset) (hl : s.line = none) (hp : s.profile = some p)
    (hcomp : s.comp = some c) (hlb : payloadLength p ≤ s.lbSize)
    (himg : op = .paint → ∀ a < imageLength p, (Memory.read s.img a).isSome = true) :
    ∃ lb o, step s = .next
      { s with trace := s.trace ++ [.xportEnable], xportEn := some true, lb := lb, line := some .send, oracle := o } := by
  have hrun : s.ctl ≠ .idle := by rw [hc]; nofun
  obtain ⟨row, data, fixed, pol, border, o, hdata, hscan⟩ := fetchScan_fits himg c stage n w offset
  have hf : fetch s = .run (.lineData row data fixed pol border) { s with oracle := o } := by
    simp only [fetch_operation hrun hl, fetchOperation, hc, fetchWithProfile_of hp, fetchWithComp_of hcomp, hscan]
  have he := (execLineData_next (s := { s with oracle := o }) (fixed := fixed) (pol := pol) (row := row)
    (border := border)).2 ⟨p, hp, hdata, hlb, rfl⟩
  exact ⟨_, o, (step_of_run (not_quiet_of_ctl hrun) hf he).trans (advance_lineBegun hrun hl nofun)⟩

/-- A command of the host that leaves the machine at a place of a block-scan stage goes on, in its own step, to begin the line
of that place (00 R11; assumption 8). -/
theorem step_host_begins_line {s u : State} {w : HostWord} {rest : List HostWord} {i : Instr} {p : PanelProfile} {c : CompProfile}
    {op : FrameOp} (hq : s.Quiet) (hw : s.hostQ = w :: rest) (hd : decode (.host w) = .ok i)
    (he : exec i { s with hostQ := rest } = .next u) (hu : u.ctl = stageStart op c .one) (hl : u.line = none)
    (hp : u.profile = some p) (hc : u.comp = some c) (hlb : payloadLength p ≤ u.lbSize)
    (himg : op = .paint → ∀ a < imageLength p, (Memory.read u.img a).isSome = true) :
    ∃ lb o, step s = .next
      { u with trace := u.trace ++ [.xportEnable], xportEn := some true, lb := lb, line := some .send, oracle := o } := by
  rw [step_host_starts hq hw hd he (not_quiet_of_ctl (hu ▸ stageStart_ne_idle op c .one))]
  exact step_scan_begins_line hu hl hp hc hlb himg

/-! ## The gate of CLEAR and PAINT -/

/-- A selected profile that breaks the constraint is rejected before anything else is looked at (42 R178; assumption 14). -/
theorem withSaneComp_bad {s : State} {c : CompProfile} (hv : s.compValid = true) (hc : s.comp = some c) (hbad : c.ok = false)
    (k : CompProfile → Result) : withSaneComp s k = .refused .badCompensation := by
  simp [withSaneComp, withComp_of hc, hv, hbad]

/-- A profile with a repeat or step of 0, or a block below its step, in stage 1 or 3 breaks the constraint (42 R178). -/
theorem compProfile_not_ok {c : CompProfile}
    (h : c.stage1Repeat = 0 ∨ c.stage1Step = 0 ∨ c.stage1Block < c.stage1Step ∨
      c.stage3Repeat = 0 ∨ c.stage3Step = 0 ∨ c.stage3Block < c.stage3Step) : c.ok = false := by
  rw [← Bool.not_eq_true]
  intro hok
  obtain ⟨hrepeat1, hstep1, hblock1⟩ : 1 ≤ c.stage1Repeat ∧ 1 ≤ c.stage1Step ∧ c.stage1Step ≤ c.stage1Block :=
    stageShape_ok hok .one
  obtain ⟨hrepeat3, hstep3, hblock3⟩ : 1 ≤ c.stage3Repeat ∧ 1 ≤ c.stage3Step ∧ c.stage3Step ≤ c.stage3Block :=
    stageShape_ok hok .three
  omega

end Sys2Proof.Machine
end

section
/-! Proofs of the statements of the family 20_memory.md. -/

namespace Sys2Proof.Machine

/-- Settles O35: a row below L is read from the image byte by byte; the row at index L is the oracle's next bytes. -/
theorem imageRowOfNominalLine : Obligations.ImageRowOfNominalLine := by
  intro s p stage pol r hstage
  obtain rfl : pol = stagePol stage := by rcases hstage with ⟨rfl, rfl⟩ | ⟨rfl, rfl⟩ <;> rfl
  refine ⟨fun d hr hlen hbytes => ?_, ?_⟩
  · have hd := Memory.readList_of_reads hbytes
    rw [hlen] at hd
    exact fetchImageLine_read hr hd stage
  · rintro rfl
    refine ⟨_, _, drawRowL_length _ _, fetchImageLine_drawn le_rfl stage s, fun d' rest hlisted hlen => ?_⟩
    obtain ⟨hbytes, hrest⟩ := drawRowL_listed hlisted
    rw [← hlen]
    exact ⟨hbytes, hrest⟩

/-- Settles O55: a running operation writes neither; of the host's commands none writes the configuration and only PAINT the
image. -/
theorem imageAndConfigUntouched : Obligations.ImageAndConfigUntouched := by
  intro s t h
  by_cases hq : s.Quiet
  · rcases step_quiet_cases hq h with rfl | ⟨w, rest, i, u, hw, hd, he, hu⟩
    · exact ⟨rfl, fun hne => absurd rfl hne⟩
    obtain ⟨himg, hcfg⟩ : t.img = u.img ∧ t.cfg = u.cfg := by
      rcases hu with ⟨-, rfl⟩ | ⟨hrun, hfirst⟩
      · exact ⟨rfl, rfl⟩
      · exact step_running_img_cfg hrun hfirst
    have hsame := exec_cfg he
    refine ⟨hcfg.trans hsame, fun hne => ⟨hq, ?_⟩⟩
    by_cases hpaint : ∃ image, i = .paint image
    · obtain ⟨image, rfl⟩ := hpaint
      exact ⟨w, rest, image, hw, hd⟩
    · exact absurd (himg.trans (exec_img (fun image heq => hpaint ⟨image, heq⟩) he)) hne
  · obtain ⟨himg, hcfg⟩ := step_running_img_cfg hq h
    exact ⟨hcfg, fun hne => absurd himg hne⟩

/-- Settles O33: a sane profile passes the gate, and the place where the command leaves stage 1 begins the line of that place; a
profile that breaks the constraint is stopped by the gate. -/
theorem frameCommandsIssued : Obligations.FrameCommandsIssued := by
  refine ⟨fun s p c hq hh hp hv hc hok => ⟨?_, fun img hlen => ?_, fun w rest i hw hd hlb hi => ?_⟩,
    fun s c hq hh hv hc hbad => ?_⟩
  · exact execClear_next.2 ⟨hq, hh, hv, c, hc, hok, rfl⟩
  · exact ⟨Memory.ofList img, fun a ha => Memory.read_ofList img ha, fun a ha => Memory.read_ofList_beyond img ha,
      execPaint_next.2 ⟨hq, hh, hv, c, hc, hok, p, hp, hlen, rfl⟩⟩
  · rcases hi with rfl | ⟨img, rfl, hlen⟩
    · have he := (execClear_next (s := { s with hostQ := rest })).2 ⟨hq, hh, hv, c, hc, hok, rfl⟩
      obtain ⟨lb, o, hstep⟩ := step_host_begins_line hq hw hd he rfl hq.2 hp hc hlb nofun
      exact ⟨_, hstep, rfl, rfl, rfl, rfl, rfl, rfl⟩
    · have he := (execPaint_next (s := { s with hostQ := rest })).2 ⟨hq, hh, hv, c, hc, hok, p, hp, hlen, rfl⟩
      have himg : ∀ a < imageLength p, (Memory.read (Memory.ofList img) a).isSome = true := by
        intro a ha
        rw [Memory.read_ofList img (hlen ▸ ha)]
        rfl
      obtain ⟨lb, o, hstep⟩ := step_host_begins_line hq hw hd he rfl hq.2 hp hc hlb fun _ => himg
      exact ⟨_, hstep, rfl, rfl, rfl, rfl, rfl, rfl⟩
  · have refuses : ∀ k, withHandle s (withSaneComp s k) = .refused .badCompensation := fun k =>
      (withHandle_of (quiet_iff.1 hq) hh _).trans (withSaneComp_bad hv hc (compProfile_not_ok hbad) k)
    exact ⟨refuses _, fun img => refuses _⟩

end Sys2Proof.Machine
end

section
/-! SUPPORT. The decoder and the encoder are inverse: the code of a well-formed instruction decodes to it, and what decodes is
the code of a well-formed instruction. -/

namespace Sys2Proof

/-- The encoding of a well-formed instruction decodes to it: every instruction meets the statement made of it (30 R90). -/
theorem decode_encode {i : Instr} : Laws.RoundTrip.Statement i := by
  cases i with
  | openPanel sel => exact Laws.RoundTrip.openPanel sel
  | setTemperature celsius => exact Laws.RoundTrip.setTemperature celsius
  | paint image => exact Laws.RoundTrip.paint image
  | lineData row data fixed pol border => exact Laws.RoundTrip.lineData row data fixed pol border
  | channelSelect mask => exact Laws.RoundTrip.channelSelect mask
  | gpioConfigure pin mode => exact Laws.RoundTrip.gpioConfigure pin mode
  | gpioWrite pin bit => exact Laws.RoundTrip.gpioWrite pin bit
  | gpioRead pin => exact Laws.RoundTrip.gpioRead pin
  | xportSend bytes => exact Laws.RoundTrip.xportSend bytes
  | xportRead command n => exact Laws.RoundTrip.xportRead command n
  | delayMs n => exact Laws.RoundTrip.delayMs n
  | delayUs n => exact Laws.RoundTrip.delayUs n
  | timerArm ms => exact Laws.RoundTrip.timerArm ms
  | _ => exact fun _ => rfl

/-- `c` is the code of the well-formed instruction `i`. -/
def IsCodeOf (c : Code) (i : Instr) : Prop := wellFormed i = true ∧ encode i = c

/-- A pair `(op, operand)` that decodes is the code of its command: `op` is the command's number (30 R91). -/
theorem decodeHost_isCodeOf {w : HostWord} {i : Instr} (h : decodeHost w = .ok i) : IsCodeOf (.host w) i := by
  obtain ⟨op, operand⟩ := w
  have op_eq : ∀ {n : Nat}, op.toNat = n → op = BitVec.ofNat 3 n := fun hn => by
    rw [← hn, BitVec.ofNat_toNat, BitVec.setWidth_eq]
  unfold decodeHost at h
  split at h
  case h_9 => cases h
  all_goals
    rename_i hop hoperand
    cases h
    cases hoperand
    cases op_eq hop
    exact ⟨rfl, rfl⟩

/-- A COG write command without data is its name alone (30 R100). -/
theorem writeInstr_isCodeOf {c : CogWriteCmd} {i : Instr} (h : writeInstr c = some i) : IsCodeOf (.cog (.write c) []) i := by
  cases c <;> cases h <;> exact ⟨rfl, rfl⟩

/-- Only CHANNEL_SELECT is no command without data (30 R100). -/
theorem writeInstr_none {c : CogWriteCmd} (h : writeInstr c = none) : c = .channelSelect := by
  cases c
  case channelSelect => rfl
  all_goals cases h

theorem readInstr_isCodeOf (c : CogReadCmd) : IsCodeOf (.cog (.read c) []) (readInstr c) := by
  cases c <;> exact ⟨rfl, rfl⟩

/-- A COG command that decodes is the code of its instruction: only CHANNEL_SELECT has data, nine bytes of it (30 R100). -/
theorem decodeCog_isCodeOf {name : CogName} {data : List Byte} {i : Instr} (h : decodeCog name data = .ok i) :
    IsCodeOf (.cog name data) i := by
  unfold decodeCog at h
  split at h
  case h_1 c =>
    split at h
    · cases h; subst data; exact readInstr_isCodeOf c
    · cases h
  case h_2 c =>
    split at h
    case h_1 hwrite =>
      split at h
      · cases h; subst data; exact writeInstr_isCodeOf hwrite
      · cases h
    case h_2 hwrite =>
      obtain rfl := writeInstr_none hwrite
      split at h
      · cases h; exact ⟨decide_eq_true ‹_›, rfl⟩
      · cases h

/-- The lines the controller drives are four of the five (10 R31). -/
theorem pinOf_outPin {p : Pin} {o : OutPin} (h : outPin p = some o) : pinOf o = p := by
  cases p <;> cases h <;> rfl

/-- An event name whose arguments decode is the code of its event (30 R104). -/
theorem decodeEvent_isCodeOf {name : EventName} {args : List Arg} {i : Instr} (h : decodeEvent name args = .ok i) :
    IsCodeOf (.event name args) i := by
  unfold decodeEvent at h
  split at h
  case h_2 =>
    split at h
    case h_1 hpin => cases h; exact ⟨rfl, by rw [encode, pinOf_outPin hpin]⟩
    case h_2 => cases h
  case h_6 =>
    split at h
    · cases h
    · cases h; exact ⟨by simpa [wellFormed] using ‹_›, rfl⟩
  case h_7 | h_8 =>
    split at h
    · cases h
    · cases h; exact ⟨decide_eq_true (Nat.pos_of_ne_zero ‹_›), rfl⟩
  case h_13 => cases h
  all_goals cases h; exact ⟨rfl, rfl⟩

/-- Whatever decodes is the code of the instruction it decodes to (30 R90). -/
theorem decode_isCodeOf {c : Code} {i : Instr} (h : decode c = .ok i) : IsCodeOf c i := by
  cases c with
  | host w => exact decodeHost_isCodeOf h
  | line row data fixed pol border =>
    simp only [decode] at h
    split at h
    · cases h; exact ⟨‹_›, rfl⟩
    · cases h
  | cog name data => exact decodeCog_isCodeOf h
  | event name args => exact decodeEvent_isCodeOf h

/-- What a word of the table decodes to is what its host word does (30 R91, R105). -/
theorem decodeTableWord_host {nbits w : Nat} {i : Instr} (h : decodeTableWord nbits w = some i) :
    decode (.host (tableHostWord w)) = .ok i := by
  unfold decodeTableWord at h
  split at h
  · split at h
    · cases h; assumption
    · cases h
  · cases h

end Sys2Proof
end

section
/-! SUPPORT. The refusals of the host's commands, the scan section at row L, and the wire of a trace. -/

namespace Sys2Proof.Machine

/-! ## The refusals of the host's commands (30 R108) -/

/-- Every host command but OPEN stands behind the gate of 30 R108. -/
theorem exec_host_gated {i : Instr} {s : State} (hi : isHostCommand i = true) (hopen : ∀ sel, i ≠ .openPanel sel) :
    ∃ k, exec i s = withHandle s k := by
  cases i
  case openPanel sel => exact absurd rfl (hopen sel)
  case close | setTemperature | status | begin | endPower | clear | paint => exact ⟨_, rfl⟩
  all_goals cases hi

/-- While an operation runs the gate refuses (30 R108). -/
theorem withHandle_busy {s : State} (h : s.ctl ≠ .idle) (k : Result) : withHandle s k = .refused .busy := by
  simp [withHandle, State.atIdle, h]

/-- Without a handle the gate refuses (30 R108). -/
theorem withHandle_noHandle {s : State} (hq : s.Quiet) (hh : s.handleValid = false) (k : Result) :
    withHandle s k = .refused .noHandle := by
  simp [withHandle, quiet_iff.1 hq, hh]

theorem withSaneComp_noCompensation {s : State} (h : s.compValid = false) (k : CompProfile → Result) :
    withSaneComp s k = .refused .noCompensation := by
  simp [withSaneComp, h]

theorem withSaneComp_of {s : State} {c : CompProfile} (hv : s.compValid = true) (hc : s.comp = some c) (hok : c.ok = true)
    (k : CompProfile → Result) : withSaneComp s k = k c := by
  simp [withSaneComp, withComp_of hc, hv, hok]

theorem execOpen_busy {s : State} (h : s.ctl ≠ .idle) (sel : Nat) : execOpen sel s = .refused .busy := by
  simp [execOpen, State.atIdle, h]

theorem execOpen_alreadyOpen {s : State} (hq : s.Quiet) (hh : s.handleValid = true) (sel : Nat) :
    execOpen sel s = .refused .alreadyOpen := by
  simp [execOpen, quiet_iff.1 hq, hh]

theorem execPaint_badImageLength {s : State} {p : PanelProfile} {c : CompProfile} {image : List Byte} (hq : s.Quiet)
    (hh : s.handleValid = true) (hv : s.compValid = true) (hc : s.comp = some c) (hok : c.ok = true) (hp : s.profile = some p)
    (hlen : image.length ≠ imageLength p) : execPaint image s = .refused .badImageLength := by
  rw [execPaint, withHandle_of (quiet_iff.1 hq) hh, withSaneComp_of hv hc hok, withProfile_of hp, if_pos hlen]

/-! ## The scan section at row L (43 R195, R196) -/

/-- Row L lies one past the last row: its scan position is -1/4, rounded as SCAN_NEG_DIV says (43 R196). -/
theorem scanPos_rowL (nd : NegDiv) (bps : Nat) : scanPos nd (4 * bps) (4 * bps) = divFour nd (-1) := by
  simp [scanPos]

/-- The first of the last four rows is selected in scan byte 0 (43 R195). -/
theorem scanPos_row_lastFour (nd : NegDiv) {bps : Nat} (h : 1 ≤ bps) : scanPos nd (4 * bps) (4 * bps - 4) = divFour nd 3 := by
  rw [scanPos]
  congr 1
  omega

theorem scanSelect_first_of_four {row : Nat} (h : 4 ∣ row) : scanSelect row = 0x03 := by
  simp [scanSelect, Nat.mod_eq_zero_of_dvd h]

theorem scanByte_row (nd : NegDiv) (lines r k : Nat) :
    scanByte nd lines (.row r) k = if (k : Int) = scanPos nd lines r then scanSelect r else 0x00 := rfl

/-- The scan section that selects the first row of scan byte 0 (43 R195). -/
theorem scanByte_position_zero {nd : NegDiv} {lines r : Nat} (hpos : scanPos nd lines r = 0) (hr : 4 ∣ r) (k : Nat) :
    scanByte nd lines (.row r) k = if k = 0 then 0x03 else 0x00 := by
  simp only [scanByte_row, hpos, scanSelect_first_of_four hr, Int.natCast_eq_zero]

/-! ## The wire (44 R224, R225) -/

/-- The wire of a trace that has grown by an event has grown by that event's transport calls. -/
theorem wireTrace_append (f : CogFrame) (trace : List Event) (e : Event) :
    wireTrace f (trace ++ [e]) = wireTrace f trace ++ wireCalls f e := by
  simp [wireTrace]

end Sys2Proof.Machine
end

section
/-! SUPPORT. Where the machine answers a next state: the host's commands, the move of the control state, and the fetched instruction
of a running operation. -/

namespace Sys2Proof.Machine

/-! ## The host's word -/

/-- A word that is no command is refused (assumption 15). -/
theorem step_host_illFormed {s : State} {w : HostWord} {rest : List HostWord} {e : DecodeError} (hq : s.Quiet)
    (hw : s.hostQ = w :: rest) (hd : decode (.host w) = .error e) : step s = .refused .illFormedCommand := by
  simp only [step, runStep, runInstruction, fetch_idle hq.1 hq.2, fetchHost, hw, hd]

/-! ## Results that are a next state -/

/-- The result is a next state: no fault, no refusal. -/
def Answers (r : Result) : Prop := ∃ t, r = .next t

/-- The result is a next state, or a refusal that the host has brought about (30 R108). -/
def HostAnswers (r : Result) : Prop := Answers r ∨ ∃ q, r = .refused q ∧ q.hostMade = true

theorem withProfile_answers {s : State} {k : PanelProfile → Result} (hp : s.profile.isSome = true) (hk : ∀ p, Answers (k p)) :
    Answers (withProfile s k) := by
  obtain ⟨p, hp⟩ := Option.isSome_iff_exists.1 hp
  rw [withProfile_of hp]
  exact hk p

theorem withComp_answers {s : State} {k : CompProfile → Result} (hc : s.comp.isSome = true) (hk : ∀ c, Answers (k c)) :
    Answers (withComp s k) := by
  obtain ⟨c, hc⟩ := Option.isSome_iff_exists.1 hc
  rw [withComp_of hc]
  exact hk c

theorem testSample_answers {α : Type} {v : Option α} {e : Element} {k : α → Result} (hv : v.isSome = true)
    (hk : ∀ x, Answers (k x)) : Answers (testSample v e k) := by
  obtain ⟨x, hx⟩ := Option.isSome_iff_exists.1 hv
  rw [testSample_some hx]
  exact hk x

theorem afterPiece_answers {code : List Instr} {k : Nat} {stay : Nat → Ctl} {t : State} {done : Result}
    (hdone : code.length ≤ k + 1 → Answers done) : Answers (afterPiece code k stay t done) := by
  unfold afterPiece
  split
  · exact ⟨_, rfl⟩
  · exact hdone (Nat.le_of_not_lt ‹_›)

/-! ## The host's commands -/

/-- The gate refuses for its two reasons, both the host's. -/
theorem withHandle_hostAnswers {s : State} {k : Result} (hk : s.handleValid = true → HostAnswers k) :
    HostAnswers (withHandle s k) := by
  unfold withHandle
  split
  · exact .inr ⟨.busy, rfl, rfl⟩
  · split
    · exact .inr ⟨.noHandle, rfl, rfl⟩
    · exact hk (by simpa using ‹¬ (!s.handleValid) = true›)

/-- OPEN refuses while an operation runs or a handle exists (30 R108). -/
theorem execOpen_hostAnswers (sel : Nat) (s : State) : HostAnswers (execOpen sel s) := by
  unfold execOpen
  split
  · exact .inr ⟨.busy, rfl, rfl⟩
  · split
    · exact .inr ⟨.alreadyOpen, rfl, rfl⟩
    · split <;> exact .inl ⟨_, rfl⟩

/-- Under the invariant `COMP` is never rejected, and `comp` is read only where it holds a value (10 R22, 42 R178, R183). -/
theorem withSaneComp_hostAnswers {s : State} (hs : s.Inv) {k : CompProfile → Result} (hk : ∀ c, HostAnswers (k c)) :
    HostAnswers (withSaneComp s k) := by
  cases hv : s.compValid with
  | false => exact .inr ⟨.noCompensation, withSaneComp_noCompensation hv k, rfl⟩
  | true =>
    obtain ⟨c, hc⟩ := Option.isSome_iff_exists.1 (hs.handle.comp_valid ▸ hv)
    obtain ⟨p, b, -, -, rfl⟩ := hs.handle.comp_row c hc
    rw [withSaneComp_of hv hc (compOf_ok hs.handle.cfg_ok _ _)]
    exact hk _

/-- Under the invariant a command of the host is refused only for a reason of the host's making (30 R108). -/
theorem exec_host_answers {i : Instr} {s : State} (hs : s.Inv) (hi : isHostCommand i = true) : HostAnswers (exec i s) := by
  have profile_held : s.handleValid = true → s.profile.isSome = true := fun hh => hs.handle.handle_profile ▸ hh
  cases i
  case openPanel sel => exact execOpen_hostAnswers sel s
  case close | begin | endPower => exact withHandle_hostAnswers fun _ => .inl ⟨_, rfl⟩
  case setTemperature celsius =>
    exact withHandle_hostAnswers fun hh => .inl (withProfile_answers (profile_held hh) fun p => ⟨_, rfl⟩)
  case status =>
    refine withHandle_hostAnswers fun _ => .inl ?_
    split <;> exact ⟨_, rfl⟩
  case clear => exact withHandle_hostAnswers fun _ => withSaneComp_hostAnswers hs fun c => .inl ⟨_, rfl⟩
  case paint image =>
    refine withHandle_hostAnswers fun hh => withSaneComp_hostAnswers hs fun c => ?_
    obtain ⟨p, hp⟩ := Option.isSome_iff_exists.1 (profile_held hh)
    rw [withProfile_of hp]
    split
    · exact .inr ⟨.badImageLength, rfl, rfl⟩
    · exact .inl ⟨_, rfl⟩
  all_goals cases hi

/-! ## The move of the control state -/

/-- What the move after an event reads holds a value: the sample it tests, the profile, the compensation profile (10 R28). -/
def State.MoveReady (t : State) : Prop :=
  match t.ctl with
  | .puBusy => t.sampled.busyS.isSome = true
  | .vfId true => t.sampled.id2.isSome = true
  | .vfBreakage k => vfBreakageCode.length ≤ k + 1 → t.sampled.brk.isSome = true
  | .vfPump _ k => vfPumpCode.length ≤ k + 1 → t.sampled.dc.isSome = true
  | .pdCheck k => pdCheckCode.length ≤ k + 1 → t.sampled.dc.isSome = true
  | .vfInit _ | .pdFlush _ | .passRow _ _ _ _ => t.profile.isSome = true
  | .scan _ _ _ _ _ => t.profile.isSome = true ∧ t.comp.isSome = true
  | .passQuery _ _ _ => t.sampled.rem.isSome = true ∧ t.comp.isSome = true
  | _ => True

/-- A move that finds what it reads answers a next state. -/
theorem advanceOperation_answers {t : State} (h : t.MoveReady) : Answers (advanceOperation t) := by
  cases hc : t.ctl <;> simp only [State.MoveReady, hc] at h <;> simp only [advanceOperation, hc]
  case idle | puWait | passArm => exact ⟨_, rfl⟩
  case puPins | rdFinish | pdRegs | pdFinal => exact afterPiece_answers fun _ => ⟨_, rfl⟩
  case puBusy =>
    refine testSample_answers h fun busy => ?_
    split <;> exact ⟨_, rfl⟩
  case vfId second =>
    cases second with
    | false => exact ⟨_, rfl⟩
    | true =>
      refine testSample_answers h fun id2 => ?_
      split <;> exact ⟨_, rfl⟩
  case vfBreakage | pdCheck =>
    refine afterPiece_answers fun hlast => testSample_answers (h hlast) fun v => ?_
    split <;> exact ⟨_, rfl⟩
  case vfPump =>
    refine afterPiece_answers fun hlast => testSample_answers (h hlast) fun dc => ?_
    split_ifs <;> exact ⟨_, rfl⟩
  case vfInit | pdFlush => exact withProfile_answers h fun p => afterPiece_answers fun _ => ⟨_, rfl⟩
  case pdPulses =>
    refine afterPiece_answers fun _ => ?_
    split <;> exact ⟨_, rfl⟩
  case scan => exact withProfile_answers h.1 fun p => withComp_answers h.2 fun c => ⟨_, rfl⟩
  case passRow =>
    refine withProfile_answers h fun p => ?_
    split <;> exact ⟨_, rfl⟩
  case passQuery => exact testSample_answers h.1 fun rem => withComp_answers h.2 fun c => ⟨_, rfl⟩

/-! ## The fetched instruction -/

/-- The fetch gives an instruction that answers a next state, and what the move after it reads is there; within a Line that has
just begun there is no such move. -/
def Fetch.Answers (f : Fetch) : Prop :=
  ∃ i s1 u, f = .run i s1 ∧ exec i s1 = .next u ∧ (u.line = none → u.MoveReady)

/-- An event is never refused (44 R210 to R245). -/
theorem exec_event_answers {i : Instr} (hi : isEvent i = true) (s : State) : Answers (exec i s) := by
  cases i
  case openPanel | close | setTemperature | status | begin | endPower | clear | paint | lineData => cases hi
  all_goals exact ⟨_, rfl⟩

/-- An event changes neither the place of the operation nor the registers of the handle. -/
theorem exec_event_frame {i : Instr} {s u : State} (hi : isEvent i = true) (h : exec i s = .next u) :
    u.ctl = s.ctl ∧ u.profile = s.profile := by
  obtain ⟨tr, o, l, m, rfl, -⟩ := exec_event hi h
  exact ⟨rfl, rfl⟩

/-- At a place of a straight piece its event is fetched, which answers; the move after it is ready where it is after every state
the event can leave. -/
theorem fetchAt_answers {code : List Instr} {k : Nat} {s : State} (hcode : code.all isEvent = true) (hk : k < code.length)
    (ready : ∀ u, exec code[k] s = .next u → u.ctl = s.ctl → u.profile = s.profile → u.MoveReady) :
    (fetchAt code k s).Answers := by
  have hi : isEvent code[k] = true := List.all_eq_true.1 hcode _ (List.getElem_mem hk)
  obtain ⟨u, he⟩ := exec_event_answers hi s
  obtain ⟨hctl, hp⟩ := exec_event_frame hi he
  exact ⟨_, s, u, fetchAt_of_lt hk s, he, fun _ => ready u he hctl hp⟩

/-- The instruction at the last place of a straight piece is the piece's last. -/
theorem exec_at_last {code : List Instr} {k : Nat} {i : Instr} {s u : State} (hk : k < code.length) (hlast : code.length ≤ k + 1)
    (hi : code.getLast? = some i) (he : exec code[k] s = .next u) : exec i s = .next u := by
  rw [List.getLast?_eq_getElem?, show code.length - 1 = k by omega, List.getElem?_eq_getElem hk] at hi
  rwa [← Option.some.inj hi]

/-- A Line whose data fits begins (43 R190): `LB` is longer than the payload (10 R32). -/
theorem State.Inv.line_begins {s : State} (hs : s.Inv) {p : PanelProfile} (hp : s.profile = some p) {data : Option (List Byte)}
    (hdata : dataFits p data = true) (row : LineRow) (fixed : Byte) (pol : Polarity) (border : Byte) (pwr : Pwr) (o : Oracle) :
    (Fetch.run (.lineData row data fixed pol border) { s with pwr := pwr, oracle := o }).Answers := by
  have hlb : payloadLength p ≤ s.lbSize := by
    rw [hs.handle.lb_size p hp, payloadLength, scratchSize]
    exact Nat.le_succ _
  exact ⟨_, _, _, rfl, execLineData_next.2 ⟨p, hp, hdata, hlb, rfl⟩, nofun⟩

theorem fetchWithProfile_answers {s : State} {p : PanelProfile} {k : PanelProfile → Fetch} (hp : s.profile = some p)
    (hk : (k p).Answers) : (fetchWithProfile s k).Answers := by
  rwa [fetchWithProfile_of hp]

theorem fetchWithComp_answers {s : State} {c : CompProfile} {k : CompProfile → Fetch} (hc : s.comp = some c)
    (hk : (k c).Answers) : (fetchWithComp s k).Answers := by
  rwa [fetchWithComp_of hc]

/-- At every place of the flush an event or a dummy line is fetched (41 R151). -/
theorem pdFlush_answers {s : State} (hs : s.Inv) {k : Nat} (hc : s.ctl = .pdFlush k) : (fetchOperation s).Answers := by
  obtain ⟨⟨p, hp, hk, -⟩, -⟩ := hs.phase_at hc
  obtain ⟨pwr, hpwr⟩ : ∃ pwr, (if k = 0 then { s with pwr := .poweringDown } else s) = { s with pwr := pwr } := by
    split <;> exact ⟨_, rfl⟩
  simp only [fetchOperation, hc]
  refine fetchWithProfile_answers hp ?_
  rw [← hc, hpwr]
  rcases pdFlushCode_cases (List.getElem?_eq_getElem hk) with ⟨hevent, -⟩ | ⟨-, -, border, hline⟩
  · obtain ⟨u, he⟩ := exec_event_answers hevent { s with pwr := pwr }
    obtain ⟨hctl, hprofile⟩ := exec_event_frame hevent he
    refine ⟨_, _, u, fetchAt_of_lt hk _, he, fun _ => ?_⟩
    rw [State.MoveReady, hctl, hc]
    exact Option.isSome_of_eq_some (hprofile.trans hp)
  · have hf := fetchAt_of_lt hk { s with pwr := pwr }
    rw [hline] at hf
    exact hf ▸ hs.line_begins hp rfl _ _ _ _ pwr s.oracle

/-- At every place of a block-scan stage a line is fetched; for PAINT the whole image is there (42 R176, R177). -/
theorem scan_answers {s : State} (hs : s.Inv) {op : FrameOp} {stage : Stage} {n : Nat} {w : Int} {offset : Nat}
    (hc : s.ctl = .scan op stage n w offset) : (fetchOperation s).Answers := by
  obtain ⟨hframe, p, c, hp, hcomp, -⟩ := hs.phase_at hc
  have himg : op = .paint → ∀ a < imageLength p, (Memory.read s.img a).isSome = true := by
    intro hpaint
    obtain ⟨p', hp', hbytes⟩ := hframe.image hpaint
    obtain rfl : p = p' := Option.some.inj (hp.symm.trans hp')
    exact hbytes
  obtain ⟨row, data, fixed, pol, border, o, hdata, hscan⟩ := fetchScan_fits himg c stage n w offset
  simp only [fetchOperation, hc]
  refine fetchWithProfile_answers hp (fetchWithComp_answers hcomp ?_)
  exact hscan ▸ hs.line_begins hp hdata row fixed pol border s.pwr o

section
variable {s : State} (hs : s.Inv)
include hs

/-- While an operation runs the profile is held (10 R23). -/
theorem State.Inv.profile_running (hrun : s.ctl ≠ .idle) : s.profile.isSome = true :=
  hs.handle.handle_profile ▸ hs.running hrun

/-- At every place of the pseudocode an instruction is fetched that answers a next state, and the move after it finds what it
reads: the last event of a piece that a test follows leaves the sample the test takes (10 R28). -/
theorem fetchOperation_answers (hrun : s.ctl ≠ .idle) : (fetchOperation s).Answers := by
  obtain ⟨p, hp⟩ := Option.isSome_iff_exists.1 (hs.profile_running hrun)
  cases hc : s.ctl
  case idle => exact absurd hc hrun
  case pdFlush k => exact pdFlush_answers hs hc
  case scan op stage n w offset => exact scan_answers hs hc
  all_goals simp only [fetchOperation, hc]
  case puPins k | rdFinish k | pdRegs k | pdFinal k =>
    obtain ⟨hk, -⟩ := hs.phase_at hc
    exact fetchAt_answers rfl hk fun u _ hctl _ => by rw [State.MoveReady, hctl, hc]; trivial
  case pdPulses pulse k =>
    obtain ⟨-, -, hk, -⟩ := hs.phase_at hc
    exact fetchAt_answers rfl hk fun u _ hctl _ => by rw [State.MoveReady, hctl, hc]; trivial
  case vfInit k =>
    obtain ⟨hk, -⟩ := hs.phase_at hc
    refine fetchWithProfile_answers hp (fetchAt_answers rfl hk fun u _ hctl hprofile => ?_)
    rw [State.MoveReady, hctl, hc]
    exact Option.isSome_of_eq_some (hprofile.trans hp)
  case vfBreakage k | pdCheck k =>
    obtain ⟨hk, -⟩ := hs.phase_at hc
    refine fetchAt_answers rfl hk fun u he hctl _ => ?_
    rw [State.MoveReady, hctl, hc]
    intro hlast
    cases exec_at_last hk hlast rfl he
    rfl
  case vfPump a k =>
    obtain ⟨-, -, hk, -⟩ := hs.phase_at hc
    refine fetchAt_answers rfl hk fun u he hctl _ => ?_
    rw [State.MoveReady, hctl, hc]
    intro hlast
    cases exec_at_last hk hlast rfl he
    rfl
  case puBusy | puWait => exact ⟨_, _, _, rfl, rfl, fun _ => by simp [State.MoveReady, hc]⟩
  case vfId second => exact ⟨_, _, _, rfl, rfl, fun _ => by cases second <;> simp [State.MoveReady, hc]⟩
  case passArm op j half =>
    obtain ⟨-, -, c, hcomp, -⟩ := hs.phase_at hc
    exact fetchWithComp_answers hcomp ⟨_, _, _, rfl, rfl, fun _ => by simp [State.MoveReady, hc]⟩
  case passRow op j half row => exact hs.line_begins hp rfl _ _ _ _ s.pwr s.oracle
  case passQuery op j half =>
    obtain ⟨-, -, c, hcomp, -⟩ := hs.phase_at hc
    replace hcomp : s.comp = some c := hcomp
    exact ⟨_, _, _, rfl, rfl, fun _ => by simp [State.MoveReady, hc, hcomp]⟩

/-- Where lines are sent, the move after a line reads the profile, and in a block-scan stage the compensation profile. -/
theorem moveReady_after_line (hl : s.line ≠ none) (tr : List Event) (x : Option Bool) :
    ({ s with line := none, trace := tr, xportEn := x } : State).MoveReady := by
  rcases hs.ctl_in_line hl with ⟨k, hc⟩ | ⟨op, stage, n, w, offset, hc⟩ | ⟨op, j, half, row, hc⟩
  · obtain ⟨⟨p, hp, -⟩, -⟩ := hs.phase_at hc
    rw [State.MoveReady, hc]
    exact Option.isSome_of_eq_some hp
  · obtain ⟨-, p, c, hp, hcomp, -⟩ := hs.phase_at hc
    rw [State.MoveReady, hc]
    exact ⟨Option.isSome_of_eq_some hp, Option.isSome_of_eq_some hcomp⟩
  · obtain ⟨-, p, c, hp, -⟩ := hs.phase_at hc
    rw [State.MoveReady, hc]
    exact Option.isSome_of_eq_some hp

/-- The last three events of a Line run: the payload is in `LB` until it is sent (43 R201). -/
theorem line_answers {phase : LinePhase} (hl : s.line = some phase) : Answers (runInstruction s) := by
  cases phase with
  | send =>
    obtain ⟨p, bytes, hp, hread⟩ := hs.line.2 hl
    have hf : fetch s = .run (.xportSend bytes) s := by
      simp only [fetch_line hl, fetchLine, fetchWithProfile_of hp, hread]
    rw [runInstruction_of_run hf rfl, advance, hl]
    exact ⟨_, rfl⟩
  | outputEnable =>
    rw [runInstruction_of_run (fetch_line hl) rfl, advance, hl]
    exact ⟨_, rfl⟩
  | disable =>
    rw [runInstruction_of_run (fetch_line hl) rfl, advance, hl]
    exact advanceOperation_answers (moveReady_after_line hs (by rw [hl]; nofun) _ _)

/-- While an operation runs every instruction answers a next state: no fault, no refusal. -/
theorem runInstruction_answers (hq : ¬ s.Quiet) : Answers (runInstruction s) := by
  cases hl : s.line with
  | some phase => exact line_answers hs hl
  | none =>
    have hrun : s.ctl ≠ .idle := fun hc => hq ⟨hc, hl⟩
    obtain ⟨i, s1, u, hf, he, hready⟩ := fetchOperation_answers hs hrun
    rw [runInstruction_of_run ((fetch_operation hrun hl).trans hf) he]
    by_cases hu : u.line = none
    · rw [advance_operation hrun hl hu]
      exact advanceOperation_answers (hready hu)
    · exact ⟨u, advance_lineBegun hrun hl hu⟩

/-- A step of a running operation answers a next state (60 R261). -/
theorem step_running_answers (hq : ¬ s.Quiet) : Answers (step s) := by
  rw [step_running hq]
  exact runInstruction_answers hs hq

/-- With no operation running a step waits, or takes a command, which the host can have got wrong; an operation it starts runs. -/
theorem step_quiet_answers (hq : s.Quiet) : HostAnswers (step s) := by
  cases hw : s.hostQ with
  | nil => exact .inl ⟨s, step_wait hq hw⟩
  | cons w rest =>
    cases hd : decode (.host w) with
    | error e => exact .inr ⟨.illFormedCommand, step_host_illFormed hq hw hd, rfl⟩
    | ok i =>
      have hi := decode_host_isHostCommand hd
      have hs' : ({ s with hostQ := rest } : State).Inv := hs.of_quiet hq rfl
      rcases exec_host_answers hs' hi with ⟨u, he⟩ | ⟨q, he, hmade⟩
      · by_cases hu : u.Quiet
        · exact .inl ⟨u, step_host_quiet hq hw hd he hu⟩
        · rw [step_host_starts hq hw hd he hu]
          exact .inl (step_running_answers (exec_host_inv hi hs' he) hu)
      · exact .inr ⟨q, step_host_refused hq hw hd he, hmade⟩

end

end Sys2Proof.Machine
end

section
/-! Proofs of the statements of the family 30_encoding.md. -/

namespace Sys2Proof.Machine

/-- Settles O1: one half instruction by instruction, the other format by format. -/
theorem decodeEncodeAgree : Obligations.DecodeEncodeAgree := ⟨fun _ => decode_encode, fun _ _ => decode_isCodeOf⟩

/-- Settles O8: a running operation finds all it reads, so its step answers a next state; at Idle a step can be refused only by the
command it takes, for the host's reasons. -/
theorem onlyTheHostIsRefused : Obligations.OnlyTheHostIsRefused := by
  intro s hs
  by_cases hq : s.Quiet
  · exact (step_quiet_answers hs hq).imp_right fun hrefused => ⟨hq, hrefused⟩
  · exact .inl (step_running_answers hs hq)

/-- Settles O19: every command but OPEN stands behind one gate, which refuses `Busy` and `NoHandle`; OPEN has its own two refusals,
and CLEAR and PAINT a second gate, before PAINT looks at its image. -/
theorem hostCommandRefusals : Obligations.HostCommandRefusals := by
  refine ⟨fun s i hi hopen hq hh => ?_, fun s sel hq hh => execOpen_alreadyOpen hq hh sel,
    fun s img p c hq hh hv hc hok hp hlen => execPaint_badImageLength hq hh hv hc hok hp hlen, fun s hq hh hv => ?_,
    fun s i hi hrun => ?_⟩
  · obtain ⟨k, hk⟩ := exec_host_gated (s := s) hi hopen
    rw [hk, withHandle_noHandle hq hh]
  · have refuses : ∀ k, withHandle s (withSaneComp s k) = .refused .noCompensation := fun k =>
      (withHandle_of (quiet_iff.1 hq) hh _).trans (withSaneComp_noCompensation hv k)
    exact ⟨refuses _, fun img => refuses _⟩
  · by_cases hopen : ∃ sel, i = .openPanel sel
    · obtain ⟨sel, rfl⟩ := hopen
      exact execOpen_busy hrun sel
    · obtain ⟨k, hk⟩ := exec_host_gated (s := s) hi fun sel heq => hopen ⟨sel, heq⟩
      rw [hk, withHandle_busy hrun]

/-- Settles O46: the scan position of row L is -1 under `floor`, which is no scan byte, and 0 under `trunc`, as for row L-4. -/
theorem scanOutsideThePanel : Obligations.ScanOutsideThePanel := by
  refine ⟨fun _ _ _ => rfl, fun bps k => ?_, fun bps k h => ?_⟩
  · have hpos : scanPos .floor (4 * bps) (4 * bps) = -1 := scanPos_rowL .floor bps
    rw [scanByte_row, hpos, if_neg (by omega)]
  · have hL := scanByte_position_zero (scanPos_rowL .trunc bps) ⟨bps, rfl⟩ k
    have hfour := scanByte_position_zero (scanPos_row_lastFour .trunc h) (by omega) k
    exact ⟨hL, hL.trans hfour.symm⟩

/-- Settles O60: the command appends its one event, whose transport calls are the sends of the COGFRAME's write; the frame's own
conditions (30 R103) say the rest. -/
theorem channelSelectVerbatimOnTheWire : Obligations.ChannelSelectVerbatimOnTheWire := by
  intro f s t mask hlen h
  cases h
  exact ⟨f.write .channelSelect mask, f.write_ne _ _, f.channelSelect_verbatim mask hlen, wireTrace_append f _ _⟩

/-- Settles O2: each word is the code of its instruction, so it decodes to it. -/
theorem sampleWordsDecode : Obligations.SampleWordsDecode :=
  ⟨fun sel => decode_encode (i := .openPanel sel) rfl, decode_encode (i := .close) rfl,
    fun t => decode_encode (i := .setTemperature t) rfl, decode_encode (i := .status) rfl, decode_encode (i := .begin) rfl,
    decode_encode (i := .endPower) rfl, decode_encode (i := .clear) rfl, fun img => decode_encode (i := .paint img) rfl,
    decode_encode (i := .lineData (.row 5) none 0xff .inverse 0x00) rfl, decode_encode (i := .readId) rfl,
    decode_encode (i := .oscillatorOff) rfl, decode_encode (i := .gpioWrite .reset true) rfl,
    decode_encode (i := .timerQuery) rfl⟩

/-- Settles O4: `withFetchWord` leaves the machine idle with the word's command first in the queue, so the next step is the one that
takes that command. -/
theorem tableWordRunsNext : Obligations.TableWordRunsNext := by
  intro s nbits w i h
  have hq : (s.withFetchWord nbits w).Quiet := ⟨rfl, rfl⟩
  have hd := decodeTableWord_host h
  exact ⟨fun t he ht => step_host_quiet hq rfl hd he ht, fun t he ht => step_host_starts hq rfl hd he ht,
    fun r he => step_host_refused hq rfl hd he⟩

/-- Settles O18: the table of the codes, row by row (30 R93). -/
theorem resultCodes : Obligations.ResultCodes := ⟨rfl, rfl, rfl, rfl, rfl, rfl, rfl, fun _ => rfl⟩

end Sys2Proof.Machine
end

section
/-! SUPPORT. The resolver's profiles, the bands and entries of `COMP` by name, and what OPEN leaves for each answer. -/

namespace Sys2Proof.Machine

/-! ## The resolver and the compensation table (40 R121, R125, R126) -/

/-- A selector from 3 up names no size class (30 R92). -/
theorem resolve_unsupported (cfg : Cfg) {sel : Nat} (h : 3 ≤ sel) : resolve cfg sel = none := by
  obtain ⟨k, rfl⟩ := Nat.exists_eq_add_of_le' h
  rfl

/-- The three intervals of 40 R126. -/
theorem bandOf_of_interval {celsius : Int} {b : Band}
    (h : (celsius < 10 ∧ b = 0) ∨ (10 ≤ celsius ∧ celsius ≤ 40 ∧ b = 1) ∨ (40 < celsius ∧ b = 2)) : bandOf celsius = b := by
  unfold bandOf
  obtain ⟨hlow, rfl⟩ | ⟨hge, hle, rfl⟩ | ⟨hhigh, rfl⟩ := h
  · rw [if_pos hlow]
  · rw [if_neg (by omega), if_pos hle]
  · rw [if_neg (by omega), if_neg (by omega)]

/-- The nine entries of `COMP`, each with its size class and its band (40 R125). -/
def compEntries (cfg : Cfg) : List (SizeClass × Band × CompProfile) :=
  [.s144, .s200, .s270].flatMap fun c => [0, 1, 2].map fun b => (c, b, compOf cfg c b)

theorem compOf_of_mem_compEntries {cfg : Cfg} {c : SizeClass} {b : Band} {entry : CompProfile}
    (h : (c, b, entry) ∈ compEntries cfg) : compOf cfg c b = entry := by
  obtain ⟨c', -, hc⟩ := List.mem_flatMap.1 h
  obtain ⟨b', -, hb⟩ := List.mem_map.1 hc
  cases hb
  rfl

/-! ## OPEN's three ends with a supported size (40 R122) -/

section
variable (p : PanelProfile) {s : State}

theorem openWith_noTimer (ht : s.oracle.askTimerCreate = false) :
    openWith p s = { s.emit (.timerCreate false) with
      oracle := s.oracle.afterTimerCreate, result := some .allocationFailed } := by
  simp [openWith, ht]

theorem openWith_noBuffer (ht : s.oracle.askTimerCreate = true) (hb : s.oracle.afterTimerCreate.askBuffer = false) :
    openWith p s = { s.emit (.timerCreate true) with
      oracle := s.oracle.afterTimerCreate.afterBuffer, result := some .allocationFailed } := by
  simp [openWith, ht, hb]

theorem openWith_allocated (ht : s.oracle.askTimerCreate = true) (hb : s.oracle.afterTimerCreate.askBuffer = true) :
    openWith p s =
      ({ s.emit (.timerCreate true) with oracle := s.oracle.afterTimerCreate.afterBuffer } : State).withNewHandle p := by
  simp [openWith, ht, hb]

end

/-! ## The oracle's answer to STATUS -/

theorem askStatus_listed {o : Oracle} {v : Status} {rest : List Status} (h : o.status = v :: rest) : o.askStatus = v := by
  simp [Oracle.askStatus, h]

end Sys2Proof.Machine
end

section
/-! Proofs of the statements of the family 40_profile_and_host.md. -/

namespace Sys2Proof.Machine

/-- Settles O13: without a handle OPEN answers as the resolver does; with a supported size it ends at the first false answer, the
timer's or the buffer's, and with none it makes the handle. -/
theorem openCreatesHandle : Obligations.OpenCreatesHandle := by
  intro s sel hq
  refine ⟨fun hh => execOpen_alreadyOpen hq hh sel, fun hh => ⟨fun hnone => ?_, fun p hp => ?_⟩⟩
  · exact execOpen_next.2 ⟨hq, hh, .inl ⟨hnone, rfl⟩⟩
  · have hopen : exec (.openPanel sel) s = .next (openWith p s) := execOpen_next.2 ⟨hq, hh, .inr ⟨p, hp, rfl⟩⟩
    exact ⟨fun ht => hopen.trans (congrArg _ (openWith_noTimer p ht)),
      fun ht hb => hopen.trans (congrArg _ (openWith_noBuffer p ht hb)),
      fun ht hb => hopen.trans (congrArg _ (openWith_allocated p ht hb))⟩

/-- Settles O15: the interval names the band, and size class and band the entry of `COMP`. -/
theorem setTemperatureSelectsBand : Obligations.SetTemperatureSelectsBand := by
  intro s celsius hq
  refine ⟨fun hh => withHandle_noHandle hq hh _, fun p b c hh hp hinterval hentry => ?_⟩
  have hband : bandOf celsius = b := bandOf_of_interval hinterval
  have hcomp : compOf s.cfg p.sizeClass b = c := compOf_of_mem_compEntries hentry
  subst hband hcomp
  exact execSetTemperature_next.2 ⟨hq, hh, p, hp, rfl⟩

/-- Settles O16: the command keeps the gate and the profile it reads, so the second writes the same values over the first's; and
`comp` depends on the temperature through the band only. -/
theorem setTemperatureIdempotent : Obligations.SetTemperatureIdempotent := by
  refine ⟨fun s t celsius h => ?_, fun s t u c1 c2 hband ht hu => ?_⟩
  · obtain ⟨hq, hh, p, hp, rfl⟩ := execSetTemperature_next.1 h
    exact execSetTemperature_next.2 ⟨hq, hh, p, hp, rfl⟩
  · obtain ⟨-, -, p, hp, rfl⟩ := execSetTemperature_next.1 ht
    obtain ⟨-, -, q, hp', rfl⟩ := execSetTemperature_next.1 hu
    obtain rfl : p = q := Option.some.inj (hp.symm.trans hp')
    simp only [hband]

/-- Settles O17: STATUS answers the value held; with none held it answers the oracle's, which is the listed one where one is
listed. -/
theorem statusReadsFlag : Obligations.StatusReadsFlag := by
  intro s hq
  refine ⟨fun hh => withHandle_noHandle hq hh _, fun hh => ⟨fun v hv => ?_, fun hnone => ?_⟩⟩
  · exact execStatus_next.2 ⟨hq, hh, .inl ⟨v, hv, rfl⟩⟩
  · have hdrawn := execStatus_next.2 ⟨hq, hh, .inr ⟨hnone, rfl⟩⟩
    exact ⟨⟨_, hdrawn⟩, fun v rest hlist => askStatus_listed hlist ▸ hdrawn⟩

/-- Settles O11: the three rows of 40 R121, and no other selector names a size class. -/
theorem resolveTable : Obligations.ResolveTable :=
  fun cfg => ⟨rfl, rfl, rfl, fun _ => resolve_unsupported cfg⟩

/-- Settles O12: a resolved profile is the row of its size class, and the three rows are exact. -/
theorem derivedCountsConsistent : Obligations.DerivedCountsConsistent := by
  intro cfg sel p h
  rw [resolve_eq h]
  cases p.sizeClass with
  | s144 => exact ⟨rfl, rfl, rfl, .inl rfl⟩
  | s200 => exact ⟨rfl, rfl, rfl, .inr (.inl rfl)⟩
  | s270 => exact ⟨rfl, rfl, rfl, .inr (.inr rfl)⟩

/-- Settles O14: behind its gate CLOSE writes these registers and no other element. -/
theorem closeDestroysHandle : Obligations.CloseDestroysHandle := fun _ hq =>
  ⟨fun hh => withHandle_noHandle hq hh _, fun hh => execClose_next.2 ⟨hq, hh, rfl⟩⟩

end Sys2Proof.Machine
end

section
/-! SUPPORT. Runs of steps: how they are joined, a straight piece of pseudocode from its first event to what follows it, and the
four events of a Line. -/

namespace Sys2Proof.Machine

/-! ## Runs -/

theorem Runs.trans {m n : Nat} {s t u : State} (h : Runs m s t) (h' : Runs n t u) : Runs (m + n) s u := (run_add h).trans h'

theorem Runs.step_then {n : Nat} {s t u : State} (h : step s = .next t) (h' : Runs n t u) : Runs (n + 1) s u :=
  (run_succ h).trans h'

theorem Runs.one {s t : State} (h : step s = .next t) : Runs 1 s t := Runs.step_then h rfl

theorem Runs.ends_at {n : Nat} {s t u : State} (h : Runs n s t) (ht : t = u) : Runs n s u := ht ▸ h

/-- Two states with the same next step run alike. -/
theorem Runs.of_step_eq {n : Nat} {s t u : State} (h : step s = step t) (h' : Runs (n + 1) t u) : Runs (n + 1) s u := by
  have hcore : Host.Core.step Sys2Proof.core s = Host.Core.step Sys2Proof.core t := h
  simp only [Runs, Host.Core.run, hcore] at h' ⊢
  exact h'

/-! ## The state an event leaves -/

/-- The state an event leaves (44 R210 to R245). -/
def State.after (s : State) (i : Instr) : State :=
  match exec i s with
  | .next u => u
  | _ => s

section
variable {i : Instr} (hi : isEvent i = true) (s : State)
include hi

theorem exec_eq_after : exec i s = .next (s.after i) := by
  obtain ⟨u, hu⟩ := exec_event_answers hi s
  rw [State.after, hu]

/-- An event changes no register of the handle and not the place of the operation. -/
theorem State.after_frame : (s.after i).ctl = s.ctl ∧ (s.after i).line = s.line ∧ (s.after i).profile = s.profile := by
  obtain ⟨tr, o, l, m, hu, -⟩ := exec_event hi (exec_eq_after hi s)
  rw [hu]
  exact ⟨rfl, rfl, rfl⟩

/-- Of the events only READ_ID looks at the place of the operation (44 R225). -/
theorem State.after_withCtl (hid : i ≠ .readId) (c : Ctl) :
    ({ s with ctl := c } : State).after i = { s.after i with ctl := c } := by
  cases i
  case readId => exact absurd rfl hid
  case openPanel | close | setTemperature | status | begin | endPower | clear | paint | lineData => cases hi
  all_goals rfl

/-- At a place of an operation where an event is fetched, the step is the move after it. -/
theorem step_event {s s1 : State} (hrun : s.ctl ≠ .idle) (hl : s.line = none) (hf : fetchOperation s = .run i s1) :
    step s = advanceOperation (s1.after i) := by
  have hl1 : s1.line = none := by rw [(fetchOperation_run hf).2]; exact hl
  rw [step_of_run (not_quiet_of_ctl hrun) (fetch_operation hrun hl ▸ hf) (exec_eq_after hi s1),
    advance_operation hrun hl ((State.after_frame hi s1).2.1.trans hl1)]

end

/-! ## The events of BEGIN and END (44 R211 to R244) -/

section
variable (s : State)

@[simp] theorem State.after_gpioWrite (pin : OutPin) (bit : Bit) : s.after (.gpioWrite pin bit) =
    { s.emit (.gpioWrite pin bit) with pinOut := s.pinOut.set pin bit } := rfl
@[simp] theorem State.after_xportEnable : s.after .xportEnable = { s.emit .xportEnable with xportEn := some true } := rfl
@[simp] theorem State.after_xportDisable : s.after .xportDisable = { s.emit .xportDisable with xportEn := some false } := rfl
@[simp] theorem State.after_delayMs (n : Nat) : s.after (.delayMs n) = s.emit (.delayMs n) := rfl
@[simp] theorem State.after_readBreakage : s.after .readBreakage =
    { s.cogRead .readBreakage with sampled := { s.sampled with brk := some s.oracle.askCog } } := rfl
@[simp] theorem State.after_readDcdc : s.after .readDcdc =
    { s.cogRead .readDcdc with sampled := { s.sampled with dc := some s.oracle.askCog } } := rfl
@[simp] theorem State.after_channelSelect (mask : List Byte) :
    s.after (.channelSelect mask) = s.cogWrite .channelSelect mask := rfl
@[simp] theorem State.after_oeDisable : s.after .oeDisable = s.cogWrite .oeDisable [] := rfl
@[simp] theorem State.after_powerSaving : s.after .powerSaving = s.cogWrite .powerSaving [] := rfl
@[simp] theorem State.after_oscillatorOn : s.after .oscillatorOn = s.cogWrite .oscillatorOn [] := rfl
@[simp] theorem State.after_powerSetting : s.after .powerSetting = s.cogWrite .powerSetting [] := rfl
@[simp] theorem State.after_vcomLevel : s.after .vcomLevel = s.cogWrite .vcomLevel [] := rfl
@[simp] theorem State.after_pumpPositive : s.after .pumpPositive = s.cogWrite .pumpPositive [] := rfl
@[simp] theorem State.after_pumpNegative : s.after .pumpNegative = s.cogWrite .pumpNegative [] := rfl
@[simp] theorem State.after_pumpVcom : s.after .pumpVcom = s.cogWrite .pumpVcom [] := rfl
@[simp] theorem State.after_latchResetOn : s.after .latchResetOn = s.cogWrite .latchResetOn [] := rfl
@[simp] theorem State.after_powerOffPositive : s.after .powerOffPositive = s.cogWrite .powerOffPositive [] := rfl
@[simp] theorem State.after_powerOffVcom : s.after .powerOffVcom = s.cogWrite .powerOffVcom [] := rfl
@[simp] theorem State.after_powerOffAllPumps : s.after .powerOffAllPumps = s.cogWrite .powerOffAllPumps [] := rfl
@[simp] theorem State.after_oscillatorOff : s.after .oscillatorOff = s.cogWrite .oscillatorOff [] := rfl
@[simp] theorem State.after_dischargeOn : s.after .dischargeOn = s.cogWrite .dischargeOn [] := rfl
@[simp] theorem State.after_dischargeOff : s.after .dischargeOff = s.cogWrite .dischargeOff [] := rfl

end

/-! ## A straight piece of pseudocode -/

/-- Running a piece's events commutes with setting the operation's place, so the place need be followed only at the piece's end. -/
theorem foldl_after_withCtl {code : List Instr} (hcode : ∀ i ∈ code, isEvent i = true ∧ i ≠ .readId) (s : State) (c : Ctl) :
    code.foldl State.after { s with ctl := c } = { code.foldl State.after s with ctl := c } := by
  induction code generalizing s with
  | nil => rfl
  | cons i code ih =>
    obtain ⟨hi, hid⟩ := hcode i List.mem_cons_self
    rw [List.foldl_cons, List.foldl_cons, State.after_withCtl hi s hid, ih fun j hj => hcode j (List.mem_cons_of_mem i hj)]

/-- Where the profile is `prof`, the machine runs `code` from `place 0`, an event a step, and `done` comes after its last event. -/
structure IsPiece (prof : Option PanelProfile) (code : List Instr) (place : Nat → Ctl) (done : State → Result) : Prop where
  events : ∀ i ∈ code, isEvent i = true ∧ i ≠ .readId
  running : ∀ k, place k ≠ .idle
  fetched : ∀ (s : State) k, s.profile = prof →
    fetchOperation { s with ctl := place k } = fetchAt code k { s with ctl := place k }
  moves : ∀ (t : State) k, t.profile = prof →
    advanceOperation { t with ctl := place k } =
      afterPiece code k place { t with ctl := place k } (done { t with ctl := place k })

section
variable {code : List Instr} {place : Nat → Ctl} {done : State → Result} {s t : State}

theorem IsPiece.step_eq {k : Nat} (h : IsPiece s.profile code place done) (hk : k < code.length) (hc : s.ctl = place k)
    (hl : s.line = none) :
    step s = afterPiece code k place (s.after code[k]) (done (s.after code[k])) := by
  obtain ⟨hi, -⟩ := h.events _ (List.getElem_mem hk)
  obtain ⟨hctl, -, hp⟩ := State.after_frame hi s
  have hfetched := h.fetched s k rfl
  have hmoves := h.moves (s.after code[k]) k hp
  rw [← hc] at hfetched
  rw [← hctl.trans hc] at hmoves
  exact (step_event hi (hc ▸ h.running k) hl (hfetched.trans (fetchAt_of_lt hk s))).trans hmoves

/-- From any place of a piece, its remaining events and then what follows the piece. -/
theorem IsPiece.runs_from {n k : Nat} (h : IsPiece s.profile code place done) (hk : k + n + 1 = code.length)
    (hc : s.ctl = place k) (hl : s.line = none)
    (hdone : done { (code.drop k).foldl State.after s with ctl := place (code.length - 1) } = .next t) :
    Runs (n + 1) s t := by
  induction n generalizing k s with
  | zero =>
    have hlt : k < code.length := by omega
    obtain ⟨hi, -⟩ := h.events _ (List.getElem_mem hlt)
    obtain ⟨hctl, -, -⟩ := State.after_frame hi s
    refine Runs.one ((h.step_eq hlt hc hl).trans ((afterPiece_last hk _ _ _).trans ?_))
    rw [List.drop_eq_getElem_cons hlt, List.drop_eq_nil_of_le (by omega), List.foldl_cons, List.foldl_nil,
      show code.length - 1 = k by omega, ← hctl.trans hc] at hdone
    exact hdone
  | succ n ih =>
    have hlt : k < code.length := by omega
    obtain ⟨hi, -⟩ := h.events _ (List.getElem_mem hlt)
    obtain ⟨-, hline, hp⟩ := State.after_frame hi s
    refine Runs.step_then ((h.step_eq hlt hc hl).trans (afterPiece_more (by omega) _ _ _)) ?_
    refine ih (k := k + 1) (hp ▸ h) (by omega) rfl (hline.trans hl) ?_
    rw [List.drop_eq_getElem_cons hlt, List.foldl_cons] at hdone
    rw [← hdone]
    rw [foldl_after_withCtl fun i hmem => h.events i (List.mem_of_mem_drop hmem)]

/-- A whole piece. -/
theorem IsPiece.runs (h : IsPiece s.profile code place done) (hcode : code ≠ []) (hc : s.ctl = place 0) (hl : s.line = none)
    (hdone : done { code.foldl State.after s with ctl := place (code.length - 1) } = .next t) : Runs code.length s t := by
  have hpos := List.length_pos_iff.2 hcode
  rw [← Nat.sub_add_cancel hpos]
  exact h.runs_from (by omega) hc hl hdone

end

/-! ## The four events of a Line -/

section
variable {s t : State} {p : PanelProfile}

theorem not_quiet_of_line {phase : LinePhase} (hl : s.line = some phase) : ¬ s.Quiet := fun hq => by
  rw [hq.2] at hl
  cases hl

/-- The payload is sent as `LB` holds it (43 R190, R201). -/
theorem step_line_send {bytes : List Byte} (hl : s.line = some .send) (hp : s.profile = some p)
    (hlb : Memory.readList s.lb 0 (payloadLength p) = some bytes) :
    step s = .next { s with trace := s.trace ++ [.xportSend bytes], line := some .outputEnable } := by
  have hf : fetch s = .run (.xportSend bytes) s := by
    simp only [fetch_line hl, fetchLine, fetchWithProfile_of hp, hlb]
  rw [step_of_run (not_quiet_of_line hl) hf rfl, advance, hl]
  rfl

/-- The write that follows the payload (43 R199). -/
theorem step_line_outputEnable (hl : s.line = some .outputEnable) :
    step s = .next { s with trace := s.trace ++ [.cogWrite .oeToPanel []], line := some .disable } := by
  rw [step_of_run (not_quiet_of_line hl) (fetch_line hl) rfl, advance, hl]
  rfl

/-- The disable ends the Line, and the operation moves on (43 R190). -/
theorem step_line_disable (hl : s.line = some .disable) :
    step s = advanceOperation { s with trace := s.trace ++ [.xportDisable], xportEn := some false, line := none } := by
  rw [step_of_run (not_quiet_of_line hl) (fetch_line hl) rfl, advance, hl]
  rfl

/-- The state after a Line, before the operation moves on (43 R190, R200, R201). -/
def State.afterLine (s : State) (bytes : List Byte) : State :=
  { s with
    trace := s.trace ++ [.xportEnable, .xportSend bytes, .cogWrite .oeToPanel [], .xportDisable]
    xportEn := some false
    lb := Memory.writeList s.lb 0 bytes
    line := none }

/-- Beyond its payload a line leaves `LB` alone (43 R201). -/
theorem read_line_beyond_payload {data : Option (List Byte)} (hdata : dataFits p data = true) {a : Nat}
    (ha : payloadLength p ≤ a) (m : Memory) (cfg : Cfg) (row : LineRow) (fixed : Byte) (pol : Polarity) (border : Byte) :
    Memory.read (Memory.writeList m 0 (lineBytes cfg p row data fixed pol border)) a = Memory.read m a :=
  Memory.read_writeList_outside _ _ _ (.inr (by rwa [lineBytes_length hdata, Nat.zero_add]))

section
variable {s1 : State} {row : LineRow} {data : Option (List Byte)} {fixed border : Byte} {pol : Polarity}
  (hrun : s.ctl ≠ .idle) (hl : s.line = none) (hf : fetchOperation s = .run (.lineData row data fixed pol border) s1)
  (hp : s.profile = some p) (hdata : dataFits p data = true) (hlb : payloadLength p ≤ s.lbSize)
include hrun hl hf hp hdata hlb

/-- A line fetched at a place of an operation begins with the enable and the filling of `LB` (43 R190, R201). -/
theorem step_line_begins :
    step s = .next
      { s1 with
        trace := s1.trace ++ [.xportEnable]
        xportEn := some true
        lb := Memory.writeList s1.lb 0 (lineBytes s1.cfg p row data fixed pol border)
        line := some .send } := by
  have hs1 := (fetchOperation_run hf).2
  have he : exec (.lineData row data fixed pol border) s1 = .next _ :=
    execLineData_next.2 ⟨p, by rw [hs1]; exact hp, hdata, by rw [hs1]; exact hlb, rfl⟩
  exact (step_of_run (not_quiet_of_ctl hrun) (fetch_operation hrun hl ▸ hf) he).trans (advance_lineBegun hrun hl nofun)

/-- It is four steps of one event each; after the fourth the operation moves on. -/
theorem line_runs (ha : advanceOperation (s1.afterLine (lineBytes s1.cfg p row data fixed pol border)) = .next t) :
    Runs 4 s t := by
  have hp1 : s1.profile = some p := by rw [(fetchOperation_run hf).2]; exact hp
  have hread := Memory.readList_writeList s1.lb 0 (lineBytes s1.cfg p row data fixed pol border)
  rw [lineBytes_length hdata] at hread
  refine Runs.step_then (step_line_begins hrun hl hf hp hdata hlb) (Runs.step_then (step_line_send rfl hp1 hread)
    (Runs.step_then (step_line_outputEnable rfl) (Runs.one ?_)))
  rw [step_line_disable rfl, ← ha]
  simp [State.afterLine]

end

end

end Sys2Proof.Machine
end

section
/-! SUPPORT. The pieces of BEGIN and END: each straight piece with what follows it, the busy poll, the identity reads, the flush of
PoweringDown and its discharge pulses. -/

namespace Sys2Proof.Machine

/-! ## The straight pieces of BEGIN and END -/

section
variable (prof : Option PanelProfile)

theorem isPiece_puPins : IsPiece prof puPinsCode .puPins fun t => .next { t with ctl := .puBusy } :=
  ⟨by decide, nofun, fun _ _ _ => rfl, fun _ _ _ => rfl⟩

theorem isPiece_vfBreakage : IsPiece prof vfBreakageCode .vfBreakage fun t => testSample t.sampled.brk .brk fun brk =>
    if brkOk t.cfg brk then .next { t.forget with ctl := .vfInit 0 } else .next (t.forget.raiseFail .panelBroken) :=
  ⟨by decide, nofun, fun _ _ _ => rfl, fun _ _ _ => rfl⟩

/-- The one piece that reads the profile, for its mask. -/
theorem isPiece_vfInit (p : PanelProfile) :
    IsPiece (some p) (vfInitCode p.channelSelect) .vfInit fun t => .next { t with ctl := .vfPump 1 0 } where
  events := by simp [vfInitCode, isEvent, isHostCommand]
  running := nofun
  fetched _ _ hp := fetchWithProfile_of (by exact hp) _
  moves _ _ hp := withProfile_of (by exact hp) _

theorem isPiece_vfPump (attempt : Nat) : IsPiece prof vfPumpCode (.vfPump attempt) fun t => testSample t.sampled.dc .dc fun dc =>
    if dcOk t.cfg dc then .next { t.forget with pwr := .ready, ctl := .rdFinish 0 }
    else if attempt < 4 then .next { t.forget with ctl := .vfPump (attempt + 1) 0 }
    else .next (t.forget.raiseFail .dcFailed) :=
  ⟨by decide, nofun, fun _ _ _ => rfl, fun _ _ _ => rfl⟩

theorem isPiece_rdFinish : IsPiece prof rdFinishCode .rdFinish fun t => .next ({ t with status := some .ok } : State).finish :=
  ⟨by decide, nofun, fun _ _ _ => rfl, fun _ _ _ => rfl⟩

theorem isPiece_pdCheck : IsPiece prof pdCheckCode .pdCheck fun t => testSample t.sampled.dc .dc fun dc =>
    if dcOk t.cfg dc then .next { t.forget with ctl := .pdRegs 0 } else .next t.forget.abortToFinal :=
  ⟨by decide, nofun, fun _ _ _ => rfl, fun _ _ _ => rfl⟩

theorem isPiece_pdRegs : IsPiece prof pdRegsCode .pdRegs fun t => .next { t with ctl := .pdFinal 0 } :=
  ⟨by decide, nofun, fun _ _ _ => rfl, fun _ _ _ => rfl⟩

theorem isPiece_pdFinal : IsPiece prof pdFinalCode .pdFinal fun t => .next { t with ctl := .pdPulses 1 0 } :=
  ⟨by decide, nofun, fun _ _ _ => rfl, fun _ _ _ => rfl⟩

theorem isPiece_pdPulses (pulse : Nat) : IsPiece prof pdPulseCode (.pdPulses pulse) fun t =>
    if pulse < 10 then .next { t with ctl := .pdPulses (pulse + 1) 0 } else .next t.endPoweringDown :=
  ⟨by decide, nofun, fun _ _ _ => rfl, fun _ _ _ => rfl⟩

end

/-! ## The tests of the sampled values (10 R28) -/

theorem idOk_iff {v : Byte} : idOk v = true ↔ v &&& 0x0f = 0x02 := beq_iff_eq
theorem idOk_false_iff {v : Byte} : idOk v = false ↔ v &&& 0x0f ≠ 0x02 := beq_eq_false_iff_ne
theorem brkOk_iff {cfg : Cfg} {v : Byte} : brkOk cfg v = true ↔ v &&& cfg.breakageMask ≠ 0 := bne_iff_ne
theorem brkOk_false_iff {cfg : Cfg} {v : Byte} : brkOk cfg v = false ↔ v &&& cfg.breakageMask = 0 := bne_eq_false_iff_eq
theorem dcOk_iff {cfg : Cfg} {v : Byte} : dcOk cfg v = true ↔ v &&& cfg.dcdcMask ≠ 0 := bne_iff_ne
theorem dcOk_false_iff {cfg : Cfg} {v : Byte} : dcOk cfg v = false ↔ v &&& cfg.dcdcMask = 0 := bne_eq_false_iff_eq

section
variable {s : State}

/-! ## The busy poll and the identity reads (41 R143 to R145) -/

/-- A read of the busy line with its test. -/
theorem step_puBusy (hc : s.ctl = .puBusy) (hl : s.line = none) :
    step s = .next
      { s with
        trace := s.trace ++ [.gpioRead .busy s.oracle.askBusy]
        oracle := s.oracle.afterBusy
        sampled := Sampled.none
        pwr := if s.oracle.askBusy then s.pwr else .verifying
        ctl := if s.oracle.askBusy then .puWait else .vfId false } := by
  have hf : fetchOperation s = .run (.gpioRead .busy) s := by simp only [fetchOperation, hc]
  rw [step_event rfl (by rw [hc]; nofun) hl hf]
  cases hb : s.oracle.askBusy <;>
    simp [advanceOperation, State.after, exec, execGpioRead, State.emit, hc, testSample, State.forget, hb]

/-- The wait of 10 microseconds. -/
theorem step_puWait (hc : s.ctl = .puWait) (hl : s.line = none) :
    step s = .next { s with trace := s.trace ++ [.delayUs 10], ctl := .puBusy } := by
  have hf : fetchOperation s = .run (.delayUs 10) s := by simp only [fetchOperation, hc]
  rw [step_event rfl (by rw [hc]; nofun) hl hf]
  simp only [advanceOperation, State.after, exec, execDelayUs, State.emit, hc]

/-- While the line reads 1 the poll goes on, two steps for each 1. -/
theorem busyPoll_ones_runs {n : Nat} {rest : List Bit} (hc : s.ctl = .puBusy) (hl : s.line = none)
    (hb : s.oracle.busy = List.replicate n true ++ rest) :
    ∃ t, Runs (2 * n) s t ∧ t.ctl = .puBusy ∧ t.line = none ∧ t.profile = s.profile ∧ t.oracle.busy = rest ∧
        t.pwr = s.pwr ∧ t.status = s.status ∧
        t.trace = s.trace ++ (List.replicate n [Event.gpioRead .busy true, .delayUs 10]).flatten := by
  induction n generalizing s with
  | zero => exact ⟨s, rfl, hc, hl, rfl, hb, rfl, rfl, by simp⟩
  | succ n ih =>
    rw [List.replicate_succ, List.cons_append] at hb
    have hask : s.oracle.askBusy = true := by simp [Oracle.askBusy, hb]
    have hread := step_puBusy hc hl
    simp only [hask, if_true] at hread
    obtain ⟨t, hruns, hctl, hline, hprofile, hrest, hpwr, hstatus, htrace⟩ :=
      ih (s := { s with
        trace := s.trace ++ [.gpioRead .busy true] ++ [.delayUs 10], oracle := s.oracle.afterBusy, sampled := Sampled.none
        ctl := .puBusy }) rfl hl (by simp [Oracle.afterBusy, hb])
    refine ⟨t, Runs.step_then hread (Runs.step_then (step_puWait rfl hl) hruns), hctl, hline, hprofile, hrest, hpwr, hstatus,
      ?_⟩
    simp [htrace, List.replicate_succ]

/-- The first identity read is kept and not tested. -/
theorem step_vfId_first (hc : s.ctl = .vfId false) (hl : s.line = none) :
    step s = .next
      { s with
        trace := s.trace ++ [.cogRead .readId s.oracle.askCog]
        oracle := s.oracle.afterCog
        sampled := { s.sampled with id1 := some s.oracle.askCog }
        ctl := .vfId true } := by
  have hf : fetchOperation s = .run .readId s := by simp only [fetchOperation, hc]
  rw [step_event rfl (by rw [hc]; nofun) hl hf]
  simp only [advanceOperation, State.after, exec, execReadId, State.cogRead, State.emit, hc, if_true]

/-- The state after the second identity read and its test, but for what the test decides. -/
def State.afterIdRead (s : State) : State :=
  { s with
    trace := s.trace ++ [.cogRead .readId s.oracle.askCog], oracle := s.oracle.afterCog, sampled := Sampled.none }

/-- The second identity read with its test. -/
theorem step_vfId_second (hc : s.ctl = .vfId true) (hl : s.line = none) :
    step s = .next
      (if idOk s.oracle.askCog then { s.afterIdRead with ctl := .vfBreakage 0 } else s.afterIdRead.raiseFail .unsupportedCOG) := by
  have hf : fetchOperation s = .run .readId s := by simp only [fetchOperation, hc]
  rw [step_event rfl (by rw [hc]; nofun) hl hf]
  simp only [advanceOperation, State.after, exec, execReadId, State.cogRead, State.emit, hc, testSample, State.forget,
    vfId_false_ne_true.symm, if_false]
  split <;> rfl

/-! ## A charge-pump attempt (41 R148) -/

/-- The state after an attempt and its test, but for what the test decides. -/
def State.afterPump (s : State) : State :=
  { s with
    trace := s.trace ++
      [.cogWrite .pumpPositive [], .delayMs 240, .cogWrite .pumpNegative [], .delayMs 40, .cogWrite .pumpVcom [],
       .delayMs 40, .cogRead .readDcdc s.oracle.askCog]
    oracle := s.oracle.afterCog
    sampled := Sampled.none }

/-- An attempt: seven steps, then success, the next attempt, or the failure after the fourth. -/
theorem vfPump_runs {attempt : Nat} (hc : s.ctl = .vfPump attempt 0) (hl : s.line = none) :
    Runs 7 s
      (if dcOk s.cfg s.oracle.askCog then { s.afterPump with pwr := .ready, ctl := .rdFinish 0 }
       else if attempt < 4 then { s.afterPump with ctl := .vfPump (attempt + 1) 0 }
       else s.afterPump.raiseFail .dcFailed) := by
  refine (isPiece_vfPump _ attempt).runs (by decide) hc hl ?_
  cases hok : dcOk s.cfg s.oracle.askCog
  · by_cases hlt : attempt < 4 <;>
      simp [vfPumpCode, testSample, State.forget, State.afterPump, State.raiseFail, State.enterPoweringDown, hok, hlt]
  · simp [vfPumpCode, testSample, State.forget, State.afterPump, hok]

/-! ## Ready (41 R149) -/

theorem rdFinish_runs (hc : s.ctl = .rdFinish 0) (hl : s.line = none) :
    Runs 2 s
      { s with
        trace := s.trace ++ [.cogWrite .oeDisable [], .xportDisable]
        xportEn := some false
        status := some .ok
        sampled := Sampled.none
        ctl := .idle } := by
  refine (isPiece_rdFinish _).runs (by decide) hc hl ?_
  simp [rdFinishCode, State.finish]

/-! ## The visual flush (41 R151) -/

/-- On the sizes but S270 the flush is three dummy lines, each with its delay. -/
theorem pdFlushCode_lines (b : PdBorder) {c : SizeClass} (h : c ≠ .s270) : pdFlushCode b c =
    [dummyLine b.b0, .delayMs 40, dummyLine b.b1, .delayMs 200, dummyLine b.b2, .delayMs 25] := by
  cases c with
  | s270 => exact absurd rfl h
  | s144 | s200 => rfl

section
variable {p : PanelProfile} {k : Nat}

/-- The place after the one at `k`. -/
def pdFlushNext (b : PdBorder) (c : SizeClass) (k : Nat) : Ctl :=
  if k + 1 < (pdFlushCode b c).length then .pdFlush (k + 1) else .pdCheck 0

theorem advanceOperation_pdFlush {next : Ctl} (hc : s.ctl = .pdFlush k) (hp : s.profile = some p)
    (hnext : pdFlushNext s.cfg.pdBorder p.sizeClass k = next) : advanceOperation s = .next { s with ctl := next } := by
  subst hnext
  simp only [advanceOperation, hc, withProfile_of hp, afterPiece, pdFlushNext]
  split <;> rfl

/-- The state after a dummy line and its delay, with the operation at `next`. -/
def State.afterDummyLine (s : State) (p : PanelProfile) (border : Byte) (ms : Nat) (next : Ctl) : State :=
  { s with
    trace := s.trace ++
      [.xportEnable, .xportSend (lineBytes s.cfg p .noRow none 0x00 .normal border), .cogWrite .oeToPanel [],
       .xportDisable, .delayMs ms]
    xportEn := some false
    lb := Memory.writeList s.lb 0 (lineBytes s.cfg p .noRow none 0x00 .normal border)
    pwr := .poweringDown
    ctl := next }

variable (hc : s.ctl = .pdFlush k) (hl : s.line = none) (hp : s.profile = some p) (hpwr : k = 0 ∨ s.pwr = .poweringDown)
include hc hp hpwr

/-- At its first place the flush sets `pwr`; at the others it stands already. -/
theorem fetchOperation_pdFlush {i : Instr} (hi : (pdFlushCode s.cfg.pdBorder p.sizeClass)[k]? = some i) :
    fetchOperation s = .run i { s with pwr := .poweringDown } := by
  have hs1 : { s with pwr := .poweringDown } = if k = 0 then { s with pwr := .poweringDown } else s := by
    split
    · rfl
    · rw [← hpwr.resolve_left ‹_›]
  simp only [fetchOperation, hc, fetchWithProfile_of hp]
  exact fetchAt_run.2 ⟨hi, by rw [← hc]; exact hs1⟩

include hl

theorem step_pdFlush_event {i : Instr} {next : Ctl} (hev : isEvent i = true)
    (hi : (pdFlushCode s.cfg.pdBorder p.sizeClass)[k]? = some i) (hnext : pdFlushNext s.cfg.pdBorder p.sizeClass k = next) :
    step s = .next { ({ s with pwr := .poweringDown } : State).after i with ctl := next } := by
  have hrun : s.ctl ≠ .idle := by rw [hc]; nofun
  obtain ⟨tr, o, l, m, hu, -⟩ := exec_event hev (exec_eq_after hev { s with pwr := .poweringDown })
  rw [step_event hev hrun hl (fetchOperation_pdFlush hc hp hpwr hi), hu]
  exact advanceOperation_pdFlush hc hp hnext

/-- A dummy line and the delay that follows it: five steps. -/
theorem pdFlush_line_runs {border : Byte} {ms : Nat} {next : Ctl} (hlb : payloadLength p ≤ s.lbSize)
    (hline : (pdFlushCode s.cfg.pdBorder p.sizeClass)[k]? = some (dummyLine border))
    (hdelay : (pdFlushCode s.cfg.pdBorder p.sizeClass)[k + 1]? = some (.delayMs ms))
    (hnext : pdFlushNext s.cfg.pdBorder p.sizeClass (k + 1) = next) : Runs 5 s (s.afterDummyLine p border ms next) := by
  have hrun : s.ctl ≠ .idle := by rw [hc]; nofun
  have hfour := line_runs hrun hl (fetchOperation_pdFlush hc hp hpwr hline) hp rfl hlb
    (advanceOperation_pdFlush hc hp (if_pos (List.getElem?_eq_some_iff.1 hdelay).1))
  have hlast := hfour.trans (Runs.one
    (step_pdFlush_event rfl rfl (by exact hp) (.inr rfl) rfl (by exact hdelay) (by exact hnext)))
  simpa [State.afterDummyLine, State.afterLine, hl] using hlast

end

/-! ## The discharge pulses (41 R155) -/

/-- The events of one discharge pulse. -/
def pulseEvents : List Event := [.gpioWrite .discharge true, .delayMs 10, .gpioWrite .discharge false, .delayMs 10]

/-- The last `n + 1` of the ten pulses, and the end of PoweringDown. -/
theorem pdPulses_runs {n pulse : Nat} (hn : pulse + n = 10) (hc : s.ctl = .pdPulses pulse 0) (hl : s.line = none) :
    Runs (4 * (n + 1)) s
      { s with
        trace := s.trace ++ (List.replicate (n + 1) pulseEvents).flatten
        pinOut := s.pinOut.set .discharge false
        pwr := .off
        fromFailed := false
        sampled := Sampled.none
        ctl := .idle } := by
  induction n generalizing s pulse with
  | zero =>
    refine (isPiece_pdPulses _ pulse).runs (by decide) hc hl ?_
    simp [pdPulseCode, pulseEvents, PinLatches.set, show ¬ pulse < 10 by omega, State.endPoweringDown, State.finish]
  | succ n ih =>
    have hfirst : Runs 4 s { s with
        trace := s.trace ++ pulseEvents, pinOut := s.pinOut.set .discharge false, ctl := .pdPulses (pulse + 1) 0 } := by
      refine (isPiece_pdPulses _ pulse).runs (by decide) hc hl ?_
      simp [pdPulseCode, pulseEvents, PinLatches.set, show pulse < 10 by omega]
    have hrest := hfirst.trans (ih (by omega) rfl hl)
    rw [Nat.mul_succ, Nat.add_comm]
    simpa [List.replicate_succ, PinLatches.set] using hrest

end

/-! ## Where CHANNEL_SELECT stands (41 R147, R159) -/

/-- CHANNEL_SELECT, with any mask. -/
def isChannelSelect : Instr → Bool
  | .channelSelect _ => true
  | _ => false

/-- Of the places of an operation only the second of the register set-up names CHANNEL_SELECT (41 R147). -/
theorem fetchOperation_channelSelect {s s1 : State} {mask : List Byte} (hf : fetchOperation s = .run (.channelSelect mask) s1) :
    s.ctl = .vfInit 1 ∧ ∃ p, s.profile = some p ∧ mask = p.channelSelect := by
  have not_in : ∀ {code : List Instr} {k : Nat} {s' : State}, fetchAt code k s' = .run (.channelSelect mask) s1 →
      ¬ ∀ j ∈ code, isChannelSelect j = false :=
    fun hf hcode => nomatch hcode _ (List.mem_of_getElem? (fetchAt_run.1 hf).1)
  cases hc : s.ctl <;> simp only [fetchOperation, hc] at hf
  case vfInit k =>
    obtain ⟨p, hp, hf⟩ := fetchWithProfile_run.1 hf
    obtain ⟨hk, -⟩ := fetchAt_run.1 hf
    have hlt : k < 5 := (List.getElem?_eq_some_iff.1 hk).1
    interval_cases k <;> cases hk
    exact ⟨rfl, p, hp, rfl⟩
  case idle | puBusy | puWait | vfId | passRow | passQuery => cases hf
  case puPins | vfBreakage | vfPump | rdFinish | pdCheck | pdRegs | pdFinal | pdPulses => exact absurd (by decide) (not_in hf)
  case pdFlush =>
    obtain ⟨p, -, hf⟩ := fetchWithProfile_run.1 hf
    exact absurd (by cases p.sizeClass <;> simp [pdFlushCode, dummyLine, isChannelSelect]) (not_in hf)
  case scan =>
    obtain ⟨p, -, hf⟩ := fetchWithProfile_run.1 hf
    obtain ⟨c, -, hf⟩ := fetchWithComp_run.1 hf
    obtain ⟨⟨row, data, fixed, pol, border, hline⟩, -⟩ := fetchScan_run hf
    cases hline
  case passArm =>
    obtain ⟨c, -, hf⟩ := fetchWithComp_run.1 hf
    cases hf

theorem fetchLine_ne_channelSelect {phase : LinePhase} {s s1 : State} {mask : List Byte} :
    fetchLine phase s ≠ .run (.channelSelect mask) s1 := by
  intro hf
  cases phase with
  | send =>
    obtain ⟨p, -, hf⟩ := fetchWithProfile_run.1 hf
    split at hf <;> cases hf
  | outputEnable | disable => cases hf

end Sys2Proof.Machine
end

section
/-! SUPPORT. `pwr` and `status` gate nothing: with the two erased from the state, every fetch, every instruction but STATUS and
every move of the control state does the same. -/

namespace Sys2Proof.Machine

/-! ## The state without `pwr` and `status` -/

/-- The state with `pwr` and `status` erased (10 R24, R25). -/
def State.erasePower (s : State) : State := { s with pwr := .off, status := none }

section
variable (s : State)

-- Proved by `(rfl)`, not `rfl`, so that `simp` rewrites a condition together with its decidability.

@[simp] theorem State.erasePower_ctl : s.erasePower.ctl = s.ctl := (rfl)
@[simp] theorem State.erasePower_line : s.erasePower.line = s.line := (rfl)
@[simp] theorem State.erasePower_profile : s.erasePower.profile = s.profile := (rfl)
@[simp] theorem State.erasePower_comp : s.erasePower.comp = s.comp := (rfl)
@[simp] theorem State.erasePower_compValid : s.erasePower.compValid = s.compValid := (rfl)
@[simp] theorem State.erasePower_handleValid : s.erasePower.handleValid = s.handleValid := (rfl)
@[simp] theorem State.erasePower_cfg : s.erasePower.cfg = s.cfg := (rfl)
@[simp] theorem State.erasePower_img : s.erasePower.img = s.img := (rfl)
@[simp] theorem State.erasePower_lb : s.erasePower.lb = s.lb := (rfl)
@[simp] theorem State.erasePower_lbSize : s.erasePower.lbSize = s.lbSize := (rfl)
@[simp] theorem State.erasePower_hostQ : s.erasePower.hostQ = s.hostQ := (rfl)
@[simp] theorem State.erasePower_oracle : s.erasePower.oracle = s.oracle := (rfl)
@[simp] theorem State.erasePower_erasePower : s.erasePower.erasePower = s.erasePower := (rfl)
@[simp] theorem State.erasePower_atIdle : s.erasePower.atIdle = s.atIdle := (rfl)

end

/-- A result with `pwr` and `status` erased from its next state. -/
def erasePowerOf : Result → Result
  | .next t => .next t.erasePower
  | .fault r => .fault r
  | .refused r => .refused r

/-- A fetch with `pwr` and `status` erased from the state its instruction runs on. -/
def Fetch.erasePower : Fetch → Fetch
  | .run i s => .run i s.erasePower
  | .wait => .wait
  | .fault r => .fault r
  | .refused r => .refused r

theorem erasePowerOf_eq_next {r : Result} {t : State} (h : erasePowerOf r = .next t) : ∃ u, r = .next u ∧ u.erasePower = t := by
  cases r with
  | next u => exact ⟨u, rfl, Host.Outcome.next.inj h⟩
  | fault | refused => cases h

theorem erasePowerOf_eq_fault {r : Result} {q : Fault} (h : erasePowerOf r = .fault q) : r = .fault q := by
  cases r with
  | fault q' => exact h
  | next | refused => cases h

theorem erasePowerOf_eq_refused {r : Result} {q : Refusal} (h : erasePowerOf r = .refused q) : r = .refused q := by
  cases r with
  | refused q' => exact h
  | next | fault => cases h

theorem Fetch.erasePower_eq_run {f : Fetch} {i : Instr} {s : State} (h : f.erasePower = .run i s) :
    ∃ s1, f = .run i s1 ∧ s1.erasePower = s := by
  cases f with
  | run j s1 => cases h; exact ⟨s1, rfl, rfl⟩
  | wait | fault | refused => cases h

/-! ## The gates and the tests -/

section
variable {s : State}

theorem withHandle_erase {k k' : Result} (h : erasePowerOf k' = erasePowerOf k) :
    erasePowerOf (withHandle s.erasePower k') = erasePowerOf (withHandle s k) := by
  simp only [withHandle, State.erasePower_atIdle, State.erasePower_handleValid]
  split_ifs
  · rfl
  · rfl
  · exact h

theorem withProfile_erase {k k' : PanelProfile → Result} (h : ∀ p, erasePowerOf (k' p) = erasePowerOf (k p)) :
    erasePowerOf (withProfile s.erasePower k') = erasePowerOf (withProfile s k) := by
  simp only [withProfile, State.erasePower_profile]
  split
  · rfl
  · exact h _

theorem withComp_erase {k k' : CompProfile → Result} (h : ∀ c, erasePowerOf (k' c) = erasePowerOf (k c)) :
    erasePowerOf (withComp s.erasePower k') = erasePowerOf (withComp s k) := by
  simp only [withComp, State.erasePower_comp]
  split
  · rfl
  · exact h _

theorem withSaneComp_erase {k k' : CompProfile → Result} (h : ∀ c, erasePowerOf (k' c) = erasePowerOf (k c)) :
    erasePowerOf (withSaneComp s.erasePower k') = erasePowerOf (withSaneComp s k) := by
  simp only [withSaneComp, State.erasePower_compValid]
  split_ifs
  · rfl
  · refine withComp_erase fun c => ?_
    split
    · rfl
    · exact h c

theorem testSample_erase {α : Type} {v : Option α} {e : Element} {k k' : α → Result}
    (h : ∀ x, erasePowerOf (k' x) = erasePowerOf (k x)) : erasePowerOf (testSample v e k') = erasePowerOf (testSample v e k) := by
  cases v with
  | none => rfl
  | some x => exact h x

theorem afterPiece_erase {code : List Instr} {k : Nat} {stay : Nat → Ctl} {done done' : Result}
    (h : erasePowerOf done' = erasePowerOf done) :
    erasePowerOf (afterPiece code k stay s.erasePower done') = erasePowerOf (afterPiece code k stay s done) := by
  unfold afterPiece
  split
  · rfl
  · exact h

theorem fetchWithProfile_erase {k k' : PanelProfile → Fetch} (h : ∀ p, (k' p).erasePower = (k p).erasePower) :
    (fetchWithProfile s.erasePower k').erasePower = (fetchWithProfile s k).erasePower := by
  simp only [fetchWithProfile, State.erasePower_profile]
  split
  · rfl
  · exact h _

theorem fetchWithComp_erase {k k' : CompProfile → Fetch} (h : ∀ c, (k' c).erasePower = (k c).erasePower) :
    (fetchWithComp s.erasePower k').erasePower = (fetchWithComp s k).erasePower := by
  simp only [fetchWithComp, State.erasePower_comp]
  split
  · rfl
  · exact h _

theorem fetchAt_erase {s' : State} (h : s'.erasePower = s.erasePower) (code : List Instr) (k : Nat) :
    (fetchAt code k s').erasePower = (fetchAt code k s).erasePower := by
  unfold fetchAt
  split
  · exact congrArg (Fetch.run _) h
  · rfl

/-! ## The fetch -/

theorem fetchScan_erase (p : PanelProfile) (c : CompProfile) (op : FrameOp) (stage : Stage) (n : Nat) (w : Int) (offset : Nat) :
    (fetchScan p c op stage n w offset s.erasePower).erasePower = (fetchScan p c op stage n w offset s).erasePower := by
  simp only [fetchScan]
  split
  · rfl
  · split
    · rfl
    · cases op with
      | clear => rfl
      | paint =>
        simp only [fetchNominal, fetchImageLine, State.erasePower_img]
        split
        · split <;> rfl
        · rfl

theorem fetchOperation_erase : (fetchOperation s.erasePower).erasePower = (fetchOperation s).erasePower := by
  cases hc : s.ctl <;> simp only [fetchOperation, State.erasePower_ctl, hc]
  case puBusy | puWait | vfId | passRow | passQuery => rfl
  case puPins | vfBreakage | vfPump | rdFinish | pdCheck | pdRegs | pdFinal | pdPulses =>
    exact fetchAt_erase s.erasePower_erasePower _ _
  case vfInit => exact fetchWithProfile_erase fun p => fetchAt_erase s.erasePower_erasePower _ _
  case pdFlush k =>
    refine fetchWithProfile_erase fun p => fetchAt_erase ?_ _ _
    split <;> rfl
  case scan => exact fetchWithProfile_erase fun p => fetchWithComp_erase fun c => fetchScan_erase p c _ _ _ _ _
  case passArm => exact fetchWithComp_erase fun c => rfl

theorem fetchLine_erase (phase : LinePhase) : (fetchLine phase s.erasePower).erasePower = (fetchLine phase s).erasePower := by
  cases phase with
  | send =>
    refine fetchWithProfile_erase fun p => ?_
    simp only [State.erasePower_lb]
    split <;> rfl
  | outputEnable | disable => rfl

theorem fetchHost_erase : (fetchHost s.erasePower).erasePower = (fetchHost s).erasePower := by
  simp only [fetchHost, State.erasePower_hostQ]
  split
  · rfl
  · split <;> rfl

theorem fetch_erase : (fetch s.erasePower).erasePower = (fetch s).erasePower := by
  cases hl : s.line with
  | some phase =>
    rw [fetch_line hl, fetch_line (s := s.erasePower) hl]
    exact fetchLine_erase phase
  | none =>
    by_cases hc : s.ctl = .idle
    · rw [fetch_idle hc hl, fetch_idle (s := s.erasePower) hc hl]
      exact fetchHost_erase
    · rw [fetch_operation hc hl, fetch_operation (s := s.erasePower) hc hl]
      exact fetchOperation_erase

/-! ## The instructions -/

theorem openWith_erase (p : PanelProfile) : (openWith p s.erasePower).erasePower = (openWith p s).erasePower := by
  simp only [openWith, State.erasePower_oracle]
  split
  · split <;> rfl
  · rfl

/-- No instruction but STATUS reads `status`, and none reads `pwr` (41 R158). -/
theorem exec_erase {i : Instr} (hi : i ≠ .status) : erasePowerOf (exec i s.erasePower) = erasePowerOf (exec i s) := by
  cases i
  case status => exact absurd rfl hi
  case openPanel sel =>
    simp only [exec, execOpen, State.erasePower_atIdle, State.erasePower_handleValid, State.erasePower_cfg]
    split_ifs
    · rfl
    · rfl
    · split
      · rfl
      · exact congrArg Host.Outcome.next (openWith_erase _)
  case close | begin | endPower => exact withHandle_erase rfl
  case setTemperature => exact withHandle_erase (withProfile_erase fun p => rfl)
  case clear => exact withHandle_erase (withSaneComp_erase fun c => rfl)
  case paint =>
    refine withHandle_erase (withSaneComp_erase fun c => withProfile_erase fun p => ?_)
    split <;> rfl
  case lineData =>
    refine withProfile_erase fun p => ?_
    simp only [State.erasePower_lbSize]
    split_ifs <;> rfl
  all_goals rfl

/-! ## The move of the control state -/

theorem afterScanLine_erase (p : PanelProfile) (c : CompProfile) (op : FrameOp) (stage : Stage) (q : ScanPos) :
    (afterScanLine p c op stage q s.erasePower).erasePower = (afterScanLine p c op stage q s).erasePower := by
  unfold afterScanLine
  split
  · rfl
  · cases stage <;> rfl

theorem afterQuery_erase (c : CompProfile) (op : FrameOp) (j : Nat) (half : Half) (rem : Nat) :
    (afterQuery c op j half rem s.erasePower).erasePower = (afterQuery c op j half rem s).erasePower := by
  unfold afterQuery
  split
  · rfl
  · cases half <;> rfl

theorem advanceOperation_erase : erasePowerOf (advanceOperation s.erasePower) = erasePowerOf (advanceOperation s) := by
  cases hc : s.ctl <;> simp only [advanceOperation, State.erasePower_ctl, hc]
  case idle | puWait | passArm => rfl
  case puPins | rdFinish | pdRegs | pdFinal => exact afterPiece_erase rfl
  case puBusy =>
    refine testSample_erase fun busy => ?_
    split <;> rfl
  case vfId second =>
    cases second with
    | false => rfl
    | true =>
      refine testSample_erase fun id2 => ?_
      split <;> rfl
  case vfBreakage =>
    refine afterPiece_erase (testSample_erase fun brk => ?_)
    simp only [State.erasePower_cfg]
    split_ifs <;> rfl
  case vfInit => exact withProfile_erase fun p => afterPiece_erase rfl
  case vfPump =>
    refine afterPiece_erase (testSample_erase fun dc => ?_)
    simp only [State.erasePower_cfg]
    split_ifs <;> rfl
  case pdFlush => exact withProfile_erase fun p => afterPiece_erase rfl
  case pdCheck =>
    refine afterPiece_erase (testSample_erase fun dc => ?_)
    simp only [State.erasePower_cfg]
    split_ifs <;> rfl
  case pdPulses =>
    refine afterPiece_erase ?_
    split <;> rfl
  case scan =>
    exact withProfile_erase fun p => withComp_erase fun c => congrArg Host.Outcome.next (afterScanLine_erase p c _ _ _)
  case passRow =>
    refine withProfile_erase fun p => ?_
    split <;> rfl
  case passQuery =>
    exact testSample_erase fun rem => withComp_erase fun c =>
      congrArg Host.Outcome.next (afterQuery_erase (s := s.forget) c _ _ _ _)

theorem advance_erase {t : State} : erasePowerOf (advance s.erasePower t.erasePower) = erasePowerOf (advance s t) := by
  cases hl : s.line with
  | some phase =>
    simp only [advance, State.erasePower_line, hl]
    cases phase with
    | send | outputEnable => rfl
    | disable => exact advanceOperation_erase (s := { t with line := none })
  | none =>
    by_cases hc : s.ctl = .idle
    · rw [advance_idle hc hl, advance_idle (s := s.erasePower) hc hl]
      rfl
    by_cases hlt : t.line = none
    · rw [advance_operation hc hl hlt, advance_operation (s := s.erasePower) (t := t.erasePower) hc hl hlt]
      exact advanceOperation_erase
    · rw [advance_lineBegun hc hl hlt, advance_lineBegun (s := s.erasePower) (t := t.erasePower) hc hl hlt]
      rfl

end

/-! ## The step -/

section
variable {s s' : State} (h : s'.erasePower = s.erasePower)
include h

theorem exec_congr_power {i : Instr} (hi : i ≠ .status) : erasePowerOf (exec i s') = erasePowerOf (exec i s) := by
  rw [← exec_erase hi, h, exec_erase hi]

theorem advance_congr_power {t t' : State} (ht : t'.erasePower = t.erasePower) :
    erasePowerOf (advance s' t') = erasePowerOf (advance s t) := by
  rw [← advance_erase, h, ht, advance_erase]

theorem fetch_congr_power : (fetch s').erasePower = (fetch s).erasePower := by
  rw [← fetch_erase, h, fetch_erase]

theorem atIdle_congr_power : s'.atIdle = s.atIdle := by
  rw [← State.erasePower_atIdle, h, State.erasePower_atIdle]

theorem runInstruction_congr_power (hi : ∀ s1, fetch s ≠ .run .status s1) :
    erasePowerOf (runInstruction s') = erasePowerOf (runInstruction s) := by
  have hfetch := fetch_congr_power h
  cases hf : fetch s with
  | run i s1 =>
    rw [hf] at hfetch
    obtain ⟨s1', hf', h1⟩ := Fetch.erasePower_eq_run hfetch
    have hexec := exec_congr_power h1 (i := i) fun heq => hi s1 (heq ▸ hf)
    simp only [runInstruction, hf, hf']
    cases he : exec i s1 with
    | next u =>
      rw [he] at hexec
      obtain ⟨u', he', hu⟩ := erasePowerOf_eq_next hexec
      simp only [he']
      exact advance_congr_power h hu
    | fault q => simp only [erasePowerOf_eq_fault (hexec.trans (by rw [he]; rfl))]
    | refused q => simp only [erasePowerOf_eq_refused (hexec.trans (by rw [he]; rfl))]
  | wait | fault | refused =>
    cases hf' : fetch s' <;> rw [hf, hf'] at hfetch <;> cases hfetch
    simp [runInstruction, hf, hf', erasePowerOf, h]

/-- A step but the issue of STATUS does the same with any `pwr` and `status` (41 R158). -/
theorem step_congr_power (hi : ∀ s1, fetch s ≠ .run .status s1) : erasePowerOf (step s') = erasePowerOf (step s) := by
  have hrun := runInstruction_congr_power h hi
  unfold step runStep
  cases hr : runInstruction s with
  | next t =>
    rw [hr] at hrun
    obtain ⟨t', hr', ht⟩ := erasePowerOf_eq_next hrun
    simp only [hr', atIdle_congr_power h, atIdle_congr_power ht]
    split
    · rename_i hstarts
      rw [Bool.and_eq_true, Bool.not_eq_true', ← Bool.not_eq_true, ← quiet_iff, ← quiet_iff] at hstarts
      exact runInstruction_congr_power ht fun s1 hf => absurd (fetch_not_host hstarts.2 hf) nofun
    · exact congrArg Host.Outcome.next ht
  | fault q => simp only [erasePowerOf_eq_fault (hrun.trans (by rw [hr]; rfl))]
  | refused q => simp only [erasePowerOf_eq_refused (hrun.trans (by rw [hr]; rfl))]

end

end Sys2Proof.Machine
end

section
/-! Proofs of the statements of the family 41_power_sequencer.md. -/

namespace Sys2Proof.Machine

/-- Settles O21: the pin part is a straight piece, and the busy poll follows it. -/
theorem pinSequenceOfPoweringUp : Obligations.PinSequenceOfPoweringUp := by
  intro s hc hl
  refine (isPiece_puPins _).runs (by decide) hc hl ?_
  simp [puPinsCode, PinLatches.set]

/-- Settles O22: by induction on the number of ones; one more read ends the poll. -/
theorem busyPollHasNoBound : Obligations.BusyPollHasNoBound := by
  refine fun n s hc hl => ⟨fun rest => busyPoll_ones_runs hc hl, fun rest hb => ?_⟩
  obtain ⟨t, hruns, hctl, hline, -, hrest, -, hstatus, htrace⟩ := busyPoll_ones_runs hc hl hb
  have hask : t.oracle.askBusy = false := by simp [Oracle.askBusy, hrest]
  have hlast := step_puBusy hctl hline
  simp only [hask] at hlast
  exact ⟨_, hruns.trans (Runs.one hlast), rfl, hline, rfl, by simp [Oracle.afterBusy, hrest], hstatus, by simp [htrace]⟩

/-- Settles O23: two reads, of which the second is tested. -/
theorem identityCheck : Obligations.IdentityCheck := by
  intro s v1 v2 hc hl hv1 hv2
  have h := Runs.step_then (step_vfId_first hc hl) (Runs.one (step_vfId_second rfl hl))
  refine ⟨fun hgood => ?_, fun hbad => ?_⟩
  · simpa [State.afterIdRead, hv1, hv2, idOk_iff.2 hgood] using h
  · simpa [State.afterIdRead, hv1, hv2, idOk_false_iff.2 hbad, State.raiseFail, State.enterPoweringDown, statusOf] using h

/-- Settles O24: the check is a straight piece, and the test of its sample decides what follows. -/
theorem breakageCheck : Obligations.BreakageCheck := by
  intro s v hc hl hv
  have hpiece := isPiece_vfBreakage s.profile
  refine ⟨fun hgood => hpiece.runs (by decide) hc hl ?_, fun hbad => hpiece.runs (by decide) hc hl ?_⟩
  · simp [vfBreakageCode, testSample, hv, brkOk_iff.2 hgood, State.forget]
  · simp [vfBreakageCode, testSample, hv, brkOk_false_iff.2 hbad, State.forget, State.raiseFail, State.enterPoweringDown,
      statusOf]

/-- Settles O25: the set-up is a straight piece, with the mask of the profile. -/
theorem registerSetUp : Obligations.RegisterSetUp := by
  intro s p hc hl hp
  have hpiece : IsPiece s.profile _ _ _ := hp ▸ isPiece_vfInit p
  refine hpiece.runs (List.cons_ne_nil _ _) hc hl ?_
  simp [vfInitCode]

/-- Settles O26: by what the test and the number of the attempt decide. -/
theorem chargePumpAttempt : Obligations.ChargePumpAttempt := by
  rintro s attempt v - - hc hl rfl
  refine ⟨_, vfPump_runs hc hl, ?_⟩
  cases hok : dcOk s.cfg s.oracle.askCog with
  | true =>
    have hgood := dcOk_iff.1 hok
    exact ⟨rfl, rfl, hl, rfl, rfl, rfl, rfl, fun _ => ⟨rfl, rfl, rfl, rfl⟩, fun hbad => absurd hbad hgood,
      fun hbad => absurd hbad hgood⟩
  | false =>
    have hbad := dcOk_false_iff.1 hok
    simp only [Bool.false_eq_true, if_false]
    by_cases hlt : attempt < 4
    · rw [if_pos hlt]
      exact ⟨rfl, rfl, hl, rfl, rfl, rfl, rfl, fun hgood => absurd hbad hgood, fun _ _ => ⟨rfl, rfl, rfl, rfl⟩,
        fun _ hlast => absurd hlast hlt.ne⟩
    · rw [if_neg hlt]
      exact ⟨rfl, rfl, hl, rfl, rfl, rfl, rfl, fun hgood => absurd hbad hgood, fun _ hmore => absurd hmore hlt,
        fun _ _ => ⟨rfl, rfl, rfl, rfl⟩⟩

/-- Settles O27: the pieces of BEGIN one after the other, 15 + 1 + 2 + 2 + 5 + 7 + 2 events. -/
theorem beginOnGoodPanel : Obligations.BeginOnGoodPanel := by
  intro s p w rest id1 id2 brk dc hq hh hp hw hd hbusy hid1 hid2 hbrk hdc hid hbrkOk hdcOk
  have hl : s.line = none := hq.2
  have hbegin : exec .begin { s with hostQ := rest } = .next
      { s with hostQ := rest, status := some .ok, pwr := .poweringUp, ctl := .puPins 0, result := none } :=
    execBegin_next.2 ⟨hq, hh, rfl⟩
  refine Runs.of_step_eq (step_host_starts hq hw hd hbegin (not_quiet_of_ctl nofun)) ?_
  -- `by exact`: the goal names the state a piece starts in, before a fact about `s` is taken for one about that state.
  refine Runs.trans (m := 15) (n := 19) (pinSequenceOfPoweringUp _ rfl hl) ?_
  refine Runs.trans (m := 1) (n := 18) (Runs.one (step_puBusy rfl (by exact hl))) ?_
  simp only [hbusy, Bool.false_eq_true, if_false]
  refine Runs.trans (m := 2) (n := 16) ((identityCheck _ id1 id2 rfl (by exact hl) (by exact hid1) (by exact hid2)).1 hid) ?_
  refine Runs.trans (m := 2) (n := 14) ((breakageCheck _ brk rfl (by exact hl) (by exact hbrk)).1 (by exact hbrkOk)) ?_
  refine Runs.trans (m := 5) (n := 9) (registerSetUp _ p rfl (by exact hl) (by exact hp)) ?_
  refine Runs.trans (m := 7) (n := 2) (vfPump_runs rfl (by exact hl)) ?_
  simp only [hdc, dcOk_iff.2 hdcOk, if_true, State.afterPump]
  refine Runs.ends_at (rdFinish_runs rfl (by exact hl)) ?_
  simp

/-- Settles O28: the three events of S270, or three dummy lines with their delays. -/
theorem visualFlush : Obligations.VisualFlush := by
  intro s p hc hl hp hsize
  have hlb : payloadLength p ≤ s.lbSize := hsize ▸ Nat.le_succ _
  refine ⟨fun hclass => ?_, fun hclass => ?_⟩
  · have hcode : pdFlushCode s.cfg.pdBorder p.sizeClass = [.gpioWrite .border false, .delayMs 250, .gpioWrite .border true] := by
      rw [hclass]
      rfl
    have hnext : ∀ k, pdFlushNext s.cfg.pdBorder p.sizeClass k = if k + 1 < 3 then .pdFlush (k + 1) else .pdCheck 0 :=
      fun k => by rw [pdFlushNext, hcode]; rfl
    have hlow := step_pdFlush_event hc hl hp (.inl rfl) rfl (congrArg (·[0]?) hcode) (hnext 0)
    refine Runs.step_then hlow (Runs.step_then
      (step_pdFlush_event rfl (by exact hl) (by exact hp) (.inr rfl) rfl (congrArg (·[1]?) hcode) (hnext 1)) ?_)
    refine Runs.ends_at (Runs.one (step_pdFlush_event (k := 2) rfl (by exact hl) (by exact hp) (.inr rfl) rfl
      (congrArg (·[2]?) hcode) (hnext 2))) ?_
    simp [PinLatches.set]
  · have hcode := pdFlushCode_lines s.cfg.pdBorder hclass
    have hnext : ∀ k, pdFlushNext s.cfg.pdBorder p.sizeClass k = if k + 1 < 6 then .pdFlush (k + 1) else .pdCheck 0 :=
      fun k => by rw [pdFlushNext, hcode]; rfl
    have h0 := pdFlush_line_runs hc hl hp (.inl rfl) hlb (congrArg (·[0]?) hcode) (congrArg (·[1]?) hcode) (hnext 1)
    have h2 := pdFlush_line_runs (k := 2) (s := s.afterDummyLine p s.cfg.pdBorder.b0 40 (.pdFlush 2)) rfl hl hp (.inr rfl) hlb
      (congrArg (·[2]?) hcode) (congrArg (·[3]?) hcode) (hnext 3)
    have h4 := pdFlush_line_runs (k := 4)
      (s := (s.afterDummyLine p s.cfg.pdBorder.b0 40 (.pdFlush 2)).afterDummyLine p s.cfg.pdBorder.b1 200 (.pdFlush 4))
      rfl hl hp (.inr rfl) hlb (congrArg (·[4]?) hcode) (congrArg (·[5]?) hcode) (hnext 5)
    have hruns := (h0.trans h2).trans h4
    simp only [State.afterDummyLine, List.append_assoc, List.cons_append, List.nil_append] at hruns
    refine ⟨_, fun a ha => ?_, hruns⟩
    simp only [read_line_beyond_payload (data := none) rfl ha]

/-- Settles O29: the re-check is a straight piece, and the test of its sample decides what follows. -/
theorem powerDownRecheck : Obligations.PowerDownRecheck := by
  intro s v hc hl hv
  have hpiece := isPiece_pdCheck s.profile
  refine ⟨fun hgood => hpiece.runs (by decide) hc hl ?_, fun hbad => hpiece.runs (by decide) hc hl ?_⟩
  · simp [pdCheckCode, testSample, hv, dcOk_iff.2 hgood, State.forget]
  · simp [pdCheckCode, testSample, hv, dcOk_false_iff.2 hbad, State.forget, State.abortToFinal]

/-- Settles O30: the register sequence is a straight piece. -/
theorem powerDownRegisters : Obligations.PowerDownRegisters := by
  intro s hc hl
  refine (isPiece_pdRegs _).runs (by decide) hc hl ?_
  simp [pdRegsCode]

/-- Settles O31: a straight piece of four events, and ten pulses. -/
theorem powerDownFinalPart : Obligations.PowerDownFinalPart := by
  intro s hc hl
  have hpins : Runs 4 s { s with
      trace := s.trace ++ [.gpioWrite .reset false, .gpioWrite .panelOn false, .gpioWrite .border false, .xportDisable]
      pinOut := { s.pinOut with panelOn := some false, border := some false, reset := some false }
      xportEn := some false
      ctl := .pdPulses 1 0 } := by
    refine (isPiece_pdFinal _).runs (by decide) hc hl ?_
    simp [pdFinalCode, PinLatches.set]
  have h := hpins.trans (pdPulses_runs (n := 9) rfl rfl hl)
  rw [List.append_assoc] at h
  exact h

/-- The flush on either kind of panel, by its number of events. -/
theorem pdFlush_runs {s : State} {p : PanelProfile} (hc : s.ctl = .pdFlush 0) (hl : s.line = none) (hp : s.profile = some p)
    (hsize : s.lbSize = scratchSize p) :
    ∃ n tr lb l x, Runs n s
      { s with trace := s.trace ++ tr, lb := lb, pinOut := l, xportEn := x, pwr := .poweringDown, ctl := .pdCheck 0 } ∧
      tr.length = n ∧ n = if p.sizeClass = .s270 then 3 else 15 := by
  obtain ⟨hborder, hlines⟩ := visualFlush s p hc hl hp hsize
  by_cases hclass : p.sizeClass = .s270
  · exact ⟨_, _, s.lb, _, s.xportEn, hborder hclass, rfl, (if_pos hclass).symm⟩
  · obtain ⟨lb, -, hruns⟩ := hlines hclass
    exact ⟨_, _, lb, s.pinOut, _, hruns, rfl, (if_neg hclass).symm⟩

/-- From the re-check to the final part, through the register sequence where it passes (41 R153). -/
theorem pdCheck_runs {s : State} (hc : s.ctl = .pdCheck 0) (hl : s.line = none) :
    ∃ n tr o, Runs n s
      { s with
        trace := s.trace ++ tr, oracle := o, xportEn := some true, sampled := Sampled.none, ctl := .pdFinal 0
        status := if s.oracle.askCog &&& s.cfg.dcdcMask = 0 ∧ s.fromFailed = false then some .dcFailed else s.status } ∧
      tr.length = n ∧ n = 2 + (if s.oracle.askCog &&& s.cfg.dcdcMask = 0 then 0 else 9) := by
  obtain ⟨hpass, hfail⟩ := powerDownRecheck s _ hc hl rfl
  by_cases hbad : s.oracle.askCog &&& s.cfg.dcdcMask = 0
  · have hruns := hfail hbad
    have hstatus : (if s.fromFailed = true then s.status else some .dcFailed) =
        if s.fromFailed = false then some .dcFailed else s.status := by cases s.fromFailed <;> rfl
    rw [hstatus] at hruns
    simp only [hbad, true_and]
    exact ⟨_, _, _, hruns, rfl, rfl⟩
  · have hruns := (hpass hbad).trans (powerDownRegisters _ rfl hl)
    simp only [List.append_assoc] at hruns
    simp only [hbad, false_and, if_false]
    exact ⟨_, _, _, hruns, rfl, rfl⟩

/-- Settles O32: flush, re-check with or without the register sequence, and final part, one after the other. -/
theorem poweringDownAlwaysEnds : Obligations.PoweringDownAlwaysEnds := by
  intro s p v hh hc hl hp hv
  subst hv
  obtain ⟨n1, tr1, lb, l, x, h1, hlen1, hn1⟩ := pdFlush_runs hc hl hp (hh.lb_size p hp)
  obtain ⟨n2, tr2, o, h2, hlen2, hn2⟩ := pdCheck_runs (s := { s with
    trace := s.trace ++ tr1, lb := lb, pinOut := l, xportEn := x, pwr := .poweringDown, ctl := .pdCheck 0 }) rfl hl
  have h3 := (h1.trans h2).trans (powerDownFinalPart _ rfl hl)
  refine ⟨_, n1 + n2 + 44, ?_, h3, ?_, rfl, hl, rfl, rfl, rfl, rfl, rfl, rfl, rfl, rfl, rfl, rfl, rfl⟩
  · rw [hn1, hn2, ← Nat.add_assoc]
  · simp only [List.length_append, hlen1, hlen2, Nat.add_assoc]
    rfl

/-- Settles O58: the two states are one with `pwr` and `status` erased. -/
theorem powerAndStatusGateNothing : Obligations.PowerAndStatusGateNothing := by
  intro s t w v h hi
  have hstep := step_congr_power (s := s) (s' := { s with pwr := w, status := v }) rfl hi
  rw [h] at hstep
  exact erasePowerOf_eq_next hstep

/-- Settles O59: neither a Line nor the host names CHANNEL_SELECT, and of an operation only the register set-up. -/
theorem channelSelectOnlyInSetUp : Obligations.ChannelSelectOnlyInSetUp := by
  intro s s1 mask hf
  cases hl : s.line with
  | some phase => exact absurd (fetch_line hl ▸ hf) fetchLine_ne_channelSelect
  | none =>
    by_cases hc : s.ctl = .idle
    · obtain ⟨w, rest, -, hd, -⟩ := fetchHost_run (fetch_idle hc hl ▸ hf)
      exact absurd (decode_host_isHostCommand hd) nofun
    · exact fetchOperation_channelSelect (fetch_operation hc hl ▸ hf)

/-- Settles O20: the command leaves the operation at its first event, and the step goes on to that event: of the pin part, or of the
flush, which on S144 and S200 is the first of a line. -/
theorem powerCommandsIssued : Obligations.PowerCommandsIssued := by
  intro s hq hh
  have hl : s.line = none := hq.2
  have hbegin : ∀ rest, exec .begin { s with hostQ := rest } = .next
      { s with hostQ := rest, status := some .ok, pwr := .poweringUp, ctl := .puPins 0, result := none } :=
    fun rest => execBegin_next.2 ⟨hq, hh, rfl⟩
  have hend : ∀ rest, exec .endPower { s with hostQ := rest } = .next
      { s with hostQ := rest, status := some .ok, fromFailed := false, ctl := .pdFlush 0, result := none } :=
    fun rest => execEnd_next.2 ⟨hq, hh, rfl⟩
  refine ⟨hbegin s.hostQ, hend s.hostQ, fun w rest hw hd => ?_,
    fun w rest p hw hd hp => ⟨fun hsize => ?_, fun hsize hlb => ?_⟩⟩
  · rw [step_host_starts hq hw hd (hbegin rest) (not_quiet_of_ctl nofun),
      (isPiece_puPins _).step_eq (by decide) rfl (by exact hl), afterPiece_more (by decide)]
    simp [puPinsCode, PinLatches.set]
  · have hcode : (pdFlushCode s.cfg.pdBorder p.sizeClass)[0]? = some (.gpioWrite .border false) := by rw [hsize]; rfl
    have hnext : pdFlushNext s.cfg.pdBorder p.sizeClass 0 = .pdFlush 1 := by rw [hsize]; rfl
    rw [step_host_starts hq hw hd (hend rest) (not_quiet_of_ctl nofun),
      step_pdFlush_event rfl (by exact hl) (by exact hp) (.inl rfl) rfl (by exact hcode) (by exact hnext)]
    simp [PinLatches.set]
  · have hcode : (pdFlushCode s.cfg.pdBorder p.sizeClass)[0]? = some (dummyLine s.cfg.pdBorder.b0) := by
      rw [pdFlushCode_lines _ hsize]
      rfl
    have hfetch := fetchOperation_pdFlush (k := 0) (s := { s with
      hostQ := rest, status := some .ok, fromFailed := false, ctl := .pdFlush 0, result := none }) rfl hp (.inl rfl) hcode
    exact ⟨_, (step_host_starts hq hw hd (hend rest) (not_quiet_of_ctl nofun)).trans
      (step_line_begins (by exact nofun) (by exact hl) hfetch (by exact hp) rfl (by exact hlb))⟩

end Sys2Proof.Machine
end

section
/-! SUPPORT. The places of a block-scan stage by their number: the place after each, the whole walk, and where each row is
visited. -/

namespace Sys2Proof.Machine

/-! ## A counter in base `b` -/

/-- Below the last digit a step raises the digit alone. -/
theorem succ_div_mod_of_lt {k b : Nat} (h : k % b + 1 < b) : (k + 1) / b = k / b ∧ (k + 1) % b = k % b + 1 := by
  refine (Nat.div_mod_unique (by omega)).2 ⟨?_, h⟩
  have := Nat.mod_add_div k b
  omega

/-- After the last digit comes 0, with a carry. -/
theorem succ_div_mod_of_eq {k b : Nat} (h : k % b + 1 = b) : (k + 1) / b = k / b + 1 ∧ (k + 1) % b = 0 := by
  refine (Nat.div_mod_unique (by omega)).2 ⟨?_, by omega⟩
  have := Nat.mod_add_div k b
  rw [Nat.mul_succ]
  omega

section
variable {lines : Nat} {sh : ScanShape} {q : ScanPos}

/-! ## The move to the next place (42 R174) -/

theorem scanNext_window (ho : sh.block ≤ q.offset + 1) (hw : q.w + sh.step ≤ lines) :
    scanNext lines sh q = some ⟨q.n, q.w + sh.step, 0⟩ := by
  rw [scanNext, if_neg (Nat.not_lt.2 ho), if_pos hw]

/-- Past the last window it is the number of passes that decides. -/
theorem scanNext_pass (ho : sh.block ≤ q.offset + 1) (hw : (lines : Int) < q.w + sh.step) :
    scanNext lines sh q = if q.n + 1 < sh.passes then some ⟨q.n + 1, firstWindow sh, 0⟩ else none := by
  rw [scanNext, if_neg (Nat.not_lt.2 ho), if_neg (Int.not_le.2 hw)]

/-! ## The places by number -/

theorem windowCount_pos (lines : Nat) (sh : ScanShape) : 0 < windowCount lines sh := Nat.succ_pos _

/-- The place number `k` of a stage, from 0: offsets run fastest, then windows, then passes (42 R174). -/
def scanPlaceAt (lines : Nat) (sh : ScanShape) (k : Nat) : ScanPos where
  n := k / sh.block / windowCount lines sh
  w := firstWindow sh + ((k / sh.block % windowCount lines sh : Nat) : Int) * sh.step
  offset := k % sh.block

theorem scanPlaceAt_zero (lines : Nat) (sh : ScanShape) : scanPlaceAt lines sh 0 = scanStart sh := by
  simp [scanPlaceAt, scanStart]

variable (hok : sh.Ok)
include hok

theorem ScanShape.Ok.block_pos : 0 < sh.block := by
  obtain ⟨-, hstep, hblock⟩ := hok
  omega

theorem scanLineCount_pos (lines : Nat) : 0 < scanLineCount lines sh :=
  Nat.mul_pos (Nat.mul_pos hok.1 (windowCount_pos lines sh)) hok.block_pos

/-- The window after number `j` starts within the panel just where the count of 42 R175 has one more. -/
theorem next_window_le_iff (j : Nat) : firstWindow sh + j * sh.step + sh.step ≤ lines ↔ j + 1 < windowCount lines sh := by
  obtain ⟨-, hstep, hblock⟩ := hok
  rw [windowCount, Nat.add_lt_add_iff_right, ← Nat.succ_le_iff, Nat.le_div_iff_mul_le hstep, Nat.succ_mul, firstWindow,
    ← Nat.cast_mul]
  omega

/-- The passes are used up exactly at the number of places of 42 R175. -/
theorem scanPlaceAt_n_lt_iff {k : Nat} : (scanPlaceAt lines sh k).n < sh.passes ↔ k < scanLineCount lines sh := by
  rw [scanPlaceAt, Nat.div_lt_iff_lt_mul (windowCount_pos lines sh), Nat.div_lt_iff_lt_mul hok.block_pos, scanLineCount]

/-- After place number `k` comes number `k + 1`, while there is one: the offset moves on; or it was the last offset and the window
moves on; or it was the last window too and the pass moves on. -/
theorem scanNext_scanPlaceAt {k : Nat} (hk : k < scanLineCount lines sh) :
    scanNext lines sh (scanPlaceAt lines sh k) =
      if k + 1 < scanLineCount lines sh then some (scanPlaceAt lines sh (k + 1)) else none := by
  have hn := (scanPlaceAt_n_lt_iff hok).2 hk
  simp only [← scanPlaceAt_n_lt_iff hok (k := k + 1)]
  by_cases ho : k % sh.block + 1 < sh.block
  · obtain ⟨hdiv, hmod⟩ := succ_div_mod_of_lt ho
    have hnext : scanPlaceAt lines sh (k + 1) = { scanPlaceAt lines sh k with offset := k % sh.block + 1 } := by
      simp only [scanPlaceAt, hdiv, hmod]
    rw [scanNext_offset ho, hnext, if_pos hn]
    rfl
  have hlast : k % sh.block + 1 = sh.block := by
    have := Nat.mod_lt k hok.block_pos
    omega
  obtain ⟨hdiv, hmod⟩ := succ_div_mod_of_eq hlast
  by_cases hw : k / sh.block % windowCount lines sh + 1 < windowCount lines sh
  · obtain ⟨hdiv', hmod'⟩ := succ_div_mod_of_lt hw
    have hnext : scanPlaceAt lines sh (k + 1) =
        ⟨(scanPlaceAt lines sh k).n, (scanPlaceAt lines sh k).w + sh.step, 0⟩ := by
      simp only [scanPlaceAt, hdiv, hmod, hdiv', hmod', Nat.cast_add, Nat.cast_one, Int.add_mul, Int.one_mul, Int.add_assoc]
    rw [scanNext_window hlast.ge ((next_window_le_iff hok _).2 hw), hnext, if_pos hn]
  · have hlast' : k / sh.block % windowCount lines sh + 1 = windowCount lines sh := by
      have := Nat.mod_lt (k / sh.block) (windowCount_pos lines sh)
      omega
    obtain ⟨hdiv', hmod'⟩ := succ_div_mod_of_eq hlast'
    have hnext : scanPlaceAt lines sh (k + 1) = ⟨(scanPlaceAt lines sh k).n + 1, firstWindow sh, 0⟩ := by
      simp [scanPlaceAt, hdiv, hmod, hdiv', hmod']
    rw [scanNext_pass hlast.ge (Int.not_le.1 fun h => hw ((next_window_le_iff hok _).1 h)), hnext]

theorem scanNext_scanPlaceAt_more {k : Nat} (hk : k + 1 < scanLineCount lines sh) :
    scanNext lines sh (scanPlaceAt lines sh k) = some (scanPlaceAt lines sh (k + 1)) := by
  rw [scanNext_scanPlaceAt hok (Nat.lt_of_succ_lt hk), if_pos hk]

theorem scanNext_scanPlaceAt_last {k : Nat} (hk : k + 1 = scanLineCount lines sh) :
    scanNext lines sh (scanPlaceAt lines sh k) = none := by
  rw [scanNext_scanPlaceAt hok (Nat.lt_of_succ_le hk.le), if_neg hk.not_lt]

/-! ## The walk -/

/-- The walk from place number `k` goes through the places from there to the last, however much longer it is let run. -/
theorem scanWalk_scanPlaceAt {k m : Nat} (hkm : k + (m + 1) = scanLineCount lines sh) (more : Nat) :
    scanWalk lines sh (m + 1 + more) (scanPlaceAt lines sh k) = (List.range' k (m + 1)).map (scanPlaceAt lines sh) := by
  induction m generalizing k with
  | zero =>
    rw [Nat.add_comm, scanWalk, scanNext_scanPlaceAt_last hok hkm]
    rfl
  | succ m ih =>
    rw [Nat.add_right_comm, scanWalk, scanNext_scanPlaceAt_more hok (by omega), List.range'_succ, List.map_cons,
      ← ih (k := k + 1) (by omega)]

/-- The whole walk of a stage, let run longer than it lasts. -/
theorem scanWalk_scanStart_more (more : Nat) :
    scanWalk lines sh (scanLineCount lines sh + more) (scanStart sh) =
      (List.range' 0 (scanLineCount lines sh)).map (scanPlaceAt lines sh) := by
  have hpos := Nat.sub_add_cancel (scanLineCount_pos hok lines)
  have hwalk := scanWalk_scanPlaceAt hok (k := 0) ((Nat.zero_add _).trans hpos) more
  rwa [hpos, scanPlaceAt_zero] at hwalk

/-- The whole walk of a stage. -/
theorem scanWalk_scanStart : scanWalk lines sh (scanLineCount lines sh) (scanStart sh) =
    (List.range' 0 (scanLineCount lines sh)).map (scanPlaceAt lines sh) :=
  scanWalk_scanStart_more hok 0

/-- Row `r` is offset `d % step` of window `d / step` of the first pass, where `d` is its distance from the first window. -/
theorem exists_scanPlaceAt_row {r : Nat} (hr : r < lines) :
    ∃ k < scanLineCount lines sh, (scanPlaceAt lines sh k).w + (scanPlaceAt lines sh k).offset = r := by
  have ⟨hpasses, hstep, hblock⟩ := hok
  obtain ⟨d, hd⟩ : ∃ d, d = r + sh.block - sh.step := ⟨_, rfl⟩
  obtain ⟨k, hk⟩ : ∃ k, d % sh.step + sh.block * (d / sh.step) = k := ⟨_, rfl⟩
  have hwindow : d / sh.step < windowCount lines sh := Nat.lt_succ_of_le (Nat.div_le_div_right (by omega))
  have hoffset : d % sh.step < sh.block := Nat.lt_of_lt_of_le (Nat.mod_lt d hstep) hblock
  obtain ⟨hdiv, hmod⟩ := (Nat.div_mod_unique hok.block_pos).2 ⟨hk, hoffset⟩
  refine ⟨k, (scanPlaceAt_n_lt_iff hok).1 ?_, ?_⟩
  · simp only [scanPlaceAt, hdiv, Nat.div_eq_of_lt hwindow]
    exact hpasses
  · have hsplit := Nat.mod_add_div' d sh.step
    simp only [scanPlaceAt, hdiv, hmod, Nat.mod_eq_of_lt hwindow, firstWindow, ← Nat.cast_mul]
    omega

end

end Sys2Proof.Machine
end

section
/-! SUPPORT. What a line of a block-scan stage is, what follows it, and a whole stage. -/

namespace Sys2Proof.Machine

/-! ## The line at a place of a block-scan stage (42 R176) -/

section
variable {s : State} {p : PanelProfile} {c : CompProfile} {op : FrameOp} {stage : Stage} {n : Nat} {w : Int} {offset : Nat}

theorem fetch_scan (hc : s.ctl = .scan op stage n w offset) (hl : s.line = none) (hp : s.profile = some p)
    (hcomp : s.comp = some c) : fetch s = fetchScan p c op stage n w offset s := by
  rw [fetch_operation (by rw [hc]; nofun) hl]
  simp only [fetchOperation, hc, fetchWithProfile_of hp, fetchWithComp_of hcomp]

theorem fetchScan_sentinel (h : w + offset < 0 ∨ (p.linesPerDisplay : Int) < w + offset) :
    fetchScan p c op stage n w offset s = .run sentinelLine s := if_pos h

theorem fetchScan_row {r : Nat} (hr : w + offset = r) (hlast : r ≤ p.linesPerDisplay) :
    fetchScan p c op stage n w offset s =
      if offset = 0 ∧ n + 1 = (stageShape c stage).passes then .run (terminatorLine r) s else fetchNominal p op stage r s := by
  have hin : ¬ ((r : Int) < 0 ∨ (p.linesPerDisplay : Int) < r) := by omega
  simp only [fetchScan, hr, if_neg hin, Int.toNat_natCast]

end

/-! ## After a line of a block-scan stage (42 R170, R174, R179) -/

section
variable {p : PanelProfile} {c : CompProfile} {op : FrameOp} {stage : Stage} {q r : ScanPos} {t : State}

theorem afterScanLine_of_some (h : scanNext p.linesPerDisplay (stageShape c stage) q = some r) :
    afterScanLine p c op stage q t = { t with ctl := .scan op stage r.n r.w r.offset } := by
  simp only [afterScanLine, h]

theorem afterScanLine_of_none (h : scanNext p.linesPerDisplay (stageShape c stage) q = none) :
    afterScanLine p c op stage q t = afterStage c op stage t := by
  simp only [afterScanLine, h]

/-- The end of a stage moves the place of the operation and drops the samples. -/
theorem afterStage_frame (c : CompProfile) (op : FrameOp) (stage : Stage) (t : State) : afterStage c op stage t =
    { t with ctl := (afterStage c op stage t).ctl, sampled := (afterStage c op stage t).sampled } := by
  cases stage <;> rfl

theorem afterScanLine_frame (p : PanelProfile) (c : CompProfile) (op : FrameOp) (stage : Stage) (q : ScanPos) (t : State) :
    afterScanLine p c op stage q t =
      { t with ctl := (afterScanLine p c op stage q t).ctl, sampled := (afterScanLine p c op stage q t).sampled } := by
  cases h : scanNext p.linesPerDisplay (stageShape c stage) q with
  | some r => rw [afterScanLine_of_some h]
  | none =>
    rw [afterScanLine_of_none h]
    exact afterStage_frame c op stage t

/-- What comes after a stage: stage 2, or stage 3 where stage 2 has no iteration, or the end of the command. -/
theorem afterStage_ctl (c : CompProfile) (op : FrameOp) (stage : Stage) (t : State) :
    (stage = .one → 1 ≤ c.stage2Repeat → (afterStage c op stage t).ctl = .passArm op 1 .first) ∧
    (stage = .one → c.stage2Repeat = 0 →
      (afterStage c op stage t).ctl = .scan op .three 0 ((c.stage3Step : Int) - c.stage3Block) 0) ∧
    (stage = .three → (afterStage c op stage t).ctl = .idle) := by
  refine ⟨?_, ?_, ?_⟩
  · rintro rfl h
    exact if_pos h
  · rintro rfl h
    exact if_neg (by omega)
  · rintro rfl
    rfl

/-- None of these is a place of the stage that is over. -/
theorem afterStage_leaves_stage (c : CompProfile) (op : FrameOp) (stage : Stage) (t : State) (q : ScanPos) :
    (afterStage c op stage t).ctl ≠ .scan op stage q.n q.w q.offset := by
  cases stage with
  | one =>
    simp only [afterStage, stageStart]
    split <;> nofun
  | three => nofun

end

/-! ## A line and a whole stage (42 R174, R182; 43 R190) -/

section
variable {s : State} {p : PanelProfile} {c : CompProfile} {op : FrameOp} {stage : Stage}

theorem advanceOperation_scan {q : ScanPos} (hc : s.ctl = .scan op stage q.n q.w q.offset) (hp : s.profile = some p)
    (hcomp : s.comp = some c) : advanceOperation s = .next (afterScanLine p c op stage q s) := by
  simp only [advanceOperation, hc, withProfile_of hp, withComp_of hcomp]

variable (hl : s.line = none) (hp : s.profile = some p) (hcomp : s.comp = some c) (hlb : payloadLength p ≤ s.lbSize)
  (himg : op = .paint → ∀ a < imageLength p, (Memory.read s.img a).isSome = true)
include hl hp hcomp hlb himg

/-- Whatever the line at a place is, it is four steps, and then the scan moves on. -/
theorem scanLine_runs {q : ScanPos} (hc : s.ctl = .scan op stage q.n q.w q.offset) :
    ∃ tr lb o, tr.length = 4 ∧ Runs 4 s (afterScanLine p c op stage q
      { s with trace := s.trace ++ tr, xportEn := some false, lb := lb, oracle := o, line := none }) := by
  obtain ⟨row, data, fixed, pol, border, o, hdata, hscan⟩ := fetchScan_fits himg c stage q.n q.w q.offset
  have hrun : s.ctl ≠ .idle := by rw [hc]; nofun
  have hf := (fetch_operation hrun hl).symm.trans ((fetch_scan hc hl hp hcomp).trans hscan)
  exact ⟨_, _, o, rfl, line_runs hrun hl hf hp hdata hlb (advanceOperation_scan hc hp hcomp)⟩

/-- The last `m + 1` lines of a stage, of four events each, and what follows the stage. -/
theorem scanLines_run (hok : (stageShape c stage).Ok) {k m : Nat}
    (hkm : k + (m + 1) = scanLineCount p.linesPerDisplay (stageShape c stage)) {q : ScanPos}
    (hq : q = scanPlaceAt p.linesPerDisplay (stageShape c stage) k) (hc : s.ctl = .scan op stage q.n q.w q.offset) :
    ∃ tr lb o ctl, tr.length = 4 * (m + 1) ∧ Runs (4 * (m + 1)) s (afterStage c op stage
      { s with trace := s.trace ++ tr, xportEn := some false, lb := lb, oracle := o, line := none, ctl := ctl }) := by
  induction m generalizing s k q with
  | zero =>
    obtain ⟨tr, lb, o, hlen, hline⟩ := scanLine_runs hl hp hcomp hlb himg hc
    rw [afterScanLine_of_none (hq ▸ scanNext_scanPlaceAt_last hok hkm)] at hline
    exact ⟨tr, lb, o, s.ctl, hlen, hline⟩
  | succ m ih =>
    obtain ⟨tr, lb, o, hlen, hline⟩ := scanLine_runs hl hp hcomp hlb himg hc
    rw [afterScanLine_of_some (hq ▸ scanNext_scanPlaceAt_more hok (by omega))] at hline
    obtain ⟨tr', lb', o', ctl, hlen', hrest⟩ := ih (s := { s with
      trace := s.trace ++ tr, xportEn := some false, lb := lb, oracle := o, line := none, ctl := .scan op stage _ _ _ })
      rfl hp hcomp hlb himg (k := k + 1) (by omega) rfl rfl
    have hruns := hline.trans hrest
    rw [List.append_assoc, Nat.add_comm] at hruns
    refine ⟨tr ++ tr', lb', o', ctl, ?_, hruns⟩
    rw [List.length_append, hlen, hlen', Nat.add_comm, ← Nat.mul_succ]

end

end Sys2Proof.Machine
end

section
/-! SUPPORT. The places of a timed pass. -/

namespace Sys2Proof.Machine

section
variable {s : State} {p : PanelProfile} {c : CompProfile} {op : FrameOp} {i : Nat} {half : Half}

/-- A timed pass arms the timer with its time and starts its first sweep (42 R180). -/
theorem step_passArm (hc : s.ctl = .passArm op i half) (hl : s.line = none) (hcomp : s.comp = some c) :
    step s = .next { s with trace := s.trace ++ [.timerArm (halfTime c half)], ctl := .passRow op i half 0 } := by
  have hf : fetchOperation s = .run (.timerArm (halfTime c half)) s := by
    simp only [fetchOperation, hc, fetchWithComp_of hcomp]
  rw [step_event rfl (by rw [hc]; nofun) hl hf]
  show advanceOperation (s.emit _) = _
  simp only [advanceOperation, State.emit_ctl, hc]
  rfl

theorem fetch_passRow {row : Nat} (hc : s.ctl = .passRow op i half row) (hl : s.line = none) :
    fetch s = .run (.lineData (.row row) none (halfFixed half) .normal 0x00) s := by
  rw [fetch_operation (by rw [hc]; nofun) hl]
  simp only [fetchOperation, hc]

/-- After a row of a sweep comes the next, and after the last the query (42 R180). -/
theorem advanceOperation_passRow {row : Nat} (hc : s.ctl = .passRow op i half row) (hp : s.profile = some p) :
    advanceOperation s = .next
      { s with ctl := if row + 1 < p.linesPerDisplay then .passRow op i half (row + 1) else .passQuery op i half } := by
  simp only [advanceOperation, hc, withProfile_of hp]
  split <;> rfl

/-- The timer's answer to a timed pass decides in the step that asks for it (42 R180). -/
theorem step_passQuery (hc : s.ctl = .passQuery op i half) (hl : s.line = none) (hcomp : s.comp = some c) :
    step s = .next (afterQuery c op i half s.oracle.askTimer
      { s with
        trace := s.trace ++ [.timerQuery s.oracle.askTimer], oracle := s.oracle.afterTimer, sampled := Sampled.none }) := by
  have hf : fetchOperation s = .run .timerQuery s := by simp only [fetchOperation, hc]
  rw [step_event rfl (by rw [hc]; nofun) hl hf]
  simp [advanceOperation, State.after, exec, execTimerQuery, hc, testSample, withComp, hcomp, State.forget]

end

/-- After a query: another sweep while time remains; else the second pass, the next iteration, or stage 3 (42 R179, R180). -/
theorem afterQuery_ctl (c : CompProfile) (op : FrameOp) (i : Nat) (half : Half) (rem : Nat) (t : State) :
    (rem ≠ 0 → (afterQuery c op i half rem t).ctl = .passRow op i half 0) ∧
    (rem = 0 → half = .first → (afterQuery c op i half rem t).ctl = .passArm op i .second) ∧
    (rem = 0 → half = .second → i < c.stage2Repeat → (afterQuery c op i half rem t).ctl = .passArm op (i + 1) .first) ∧
    (rem = 0 → half = .second → c.stage2Repeat ≤ i →
      (afterQuery c op i half rem t).ctl = .scan op .three 0 ((c.stage3Step : Int) - c.stage3Block) 0) := by
  refine ⟨fun hrem => ?_, ?_, ?_, ?_⟩
  · simp [afterQuery, expired, hrem]
  · rintro rfl rfl
    rfl
  · rintro rfl rfl hi
    exact if_pos hi
  · rintro rfl rfl hi
    exact if_neg (Nat.not_lt.2 hi)

/-- The move after a query goes to another place, and changes nothing else. -/
theorem afterQuery_frame (c : CompProfile) (op : FrameOp) (i : Nat) (half : Half) (rem : Nat) (t : State) :
    afterQuery c op i half rem t = { t with ctl := (afterQuery c op i half rem t).ctl } := by
  unfold afterQuery
  split
  · rfl
  · cases half <;> rfl

end Sys2Proof.Machine
end

section
/-! Proofs of the statements of the family 42_frame_driver.md. -/

namespace Sys2Proof.Machine

/-- Settles O34: the tests of the three kinds, in their order. -/
theorem scanLineKinds : Obligations.ScanLineKinds := by
  intro s p c op stage n w offset passes hc hl hp hcomp hstage
  obtain rfl : passes = (stageShape c stage).passes := by rcases hstage with ⟨rfl, rfl⟩ | ⟨rfl, rfl⟩ <;> rfl
  rw [fetch_scan hc hl hp hcomp]
  refine ⟨fetchScan_sentinel, fun r hr hin => ?_⟩
  rw [fetchScan_row hr hin]
  refine ⟨fun hlast => if_pos hlast, fun hnominal => ?_⟩
  rw [if_neg hnominal]
  refine ⟨?_, ?_, ?_⟩
  · rintro ⟨rfl, rfl⟩
    rfl
  · rintro ⟨rfl, rfl⟩
    rfl
  · rintro rfl
    rfl

/-- Settles O36: the branches of `scanNext`, and what comes after a stage. -/
theorem scanLineLeadsToNext : Obligations.ScanLineLeadsToNext := by
  intro s p c op stage n w offset passes dist block hc hl hp hcomp hstage
  obtain ⟨hpasses, hdist, hblock⟩ : passes = (stageShape c stage).passes ∧ dist = (stageShape c stage).step ∧
      block = (stageShape c stage).block := by
    rcases hstage with ⟨rfl, rfl, rfl, rfl⟩ | ⟨rfl, rfl, rfl, rfl⟩ <;> exact ⟨rfl, rfl, rfl⟩
  subst hpasses hdist hblock
  have hstep := (step_line_disable hl).trans (advanceOperation_scan (q := ⟨n, w, offset⟩) hc hp hcomp)
  refine ⟨_, hstep, ?_⟩
  rw [afterScanLine_frame]
  refine ⟨rfl, rfl, rfl, rfl, rfl, rfl, rfl, rfl, rfl, rfl, rfl, ?_⟩
  dsimp only
  refine ⟨fun ho => ?_, fun ho hw => ?_, fun ho hw hn => ?_, fun ho hw hn => ?_, fun q hq => ?_, fun hnone => ?_⟩
  · rw [afterScanLine_of_some (scanNext_offset ho)]
  · rw [afterScanLine_of_some (scanNext_window ho hw)]
  · rw [afterScanLine_of_some ((scanNext_pass ho hw).trans (if_pos hn))]
    rfl
  · rw [afterScanLine_of_none ((scanNext_pass ho hw).trans (if_neg (Nat.not_lt.2 hn)))]
    exact afterStage_ctl c op stage _
  · rw [afterScanLine_of_some hq]
  · rw [afterScanLine_of_none hnone]
    exact afterStage_leaves_stage c op stage _

/-- Settles O37: the walk goes through the places number 0 to `repeat * W * block - 1`. -/
theorem scanLineCountExact : Obligations.ScanLineCount := by
  intro lines sh hok
  refine ⟨?_, fun more => (scanWalk_scanStart_more hok more).trans (scanWalk_scanStart hok).symm⟩
  rw [scanWalk_scanStart hok, List.length_map, List.length_range']

/-- Settles O38: the place of a row has a number, and the walk goes through every number. -/
theorem scanVisitsEveryRow : Obligations.ScanVisitsEveryRow := by
  intro lines sh hok r hr
  obtain ⟨k, hk, hrow⟩ := exists_scanPlaceAt_row hok hr
  have hmem : k ∈ List.range' 0 (scanLineCount lines sh) := List.mem_range'_1.2 ⟨Nat.zero_le k, by omega⟩
  refine ⟨_, ?_, hrow⟩
  rw [scanWalk_scanStart hok]
  exact List.mem_map_of_mem hmem

/-- Settles O39: the invariant gives the shape of the stage, the image and the room in `LB`; the rest is the lines of the stage
from place number 0. -/
theorem scanStageRuns : Obligations.ScanStageRuns := by
  intro s p c op stage sh hs hl hp hcomp hstage hc
  obtain rfl : sh = stageShape c stage := by rcases hstage with ⟨rfl, rfl⟩ | ⟨rfl, rfl⟩ <;> rfl
  have hok := hs.stageShape_ok hcomp stage
  have hlb : payloadLength p ≤ s.lbSize := by
    rw [hs.handle.lb_size p hp]
    exact Nat.le_succ _
  have himg : op = .paint → ∀ a < imageLength p, (Memory.read s.img a).isSome = true := by
    intro hop
    obtain ⟨hframe, -⟩ := hs.phase_at hc
    obtain ⟨p', hp', himg⟩ := hframe.image hop
    obtain rfl : p = p' := Option.some.inj (hp.symm.trans hp')
    exact himg
  have hcount := Nat.sub_add_cancel (scanLineCount_pos hok p.linesPerDisplay)
  obtain ⟨tr, lb, o, ctl, hlen, hruns⟩ := scanLines_run hl hp hcomp hlb himg hok ((Nat.zero_add _).trans hcount)
    (scanPlaceAt_zero _ _).symm hc
  rw [hcount] at hlen hruns
  refine ⟨_, hruns, ?_⟩
  rw [afterStage_frame]
  exact ⟨by rw [List.length_append, hlen], rfl, rfl, rfl, rfl, afterStage_ctl c op stage _⟩

/-- Settles O40: the step at the arming, the row fetched, the move after a line, and the step at the query. -/
theorem timedPassSteps : Obligations.TimedPassSteps := by
  intro s p c op i half hl hp hcomp
  refine ⟨fun hc => ?_, fun row hc => ?_, ?_, fun hc => ⟨_, step_passQuery hc hl hcomp, ?_⟩⟩
  · rw [step_passArm hc hl hcomp]
    cases half <;> rfl
  · rw [fetch_passRow hc hl]
    cases half <;> rfl
  · rintro row s' rfl
    exact ⟨_, (step_line_disable rfl).trans (advanceOperation_passRow rfl hp), rfl, fun hrow => if_pos hrow,
      fun hrow => if_neg (Nat.not_lt.2 hrow)⟩
  · rw [afterQuery_frame]
    exact ⟨rfl, hl, afterQuery_ctl c op i half _ _⟩

end Sys2Proof.Machine
end

section
/-! SUPPORT. What LINE_DATA sends, byte by byte: the pixel codes bit by bit, the places of the payload's sections, and the scan
byte of a row of the panel (spec/43_line_encoder.md R191 to R198). -/

namespace Sys2Proof.Machine

/-! ## Pixel codes (43 R194, R198) -/

/-- What a polarity makes of one source bit. -/
def polarityBit : Polarity → Bool → Bool
  | .normal, b => b
  | .inverse, b => !b

theorem oddCode_bit_odd (x : Byte) (pol : Polarity) (j : Fin 4) : (oddCode x pol).getLsbD (2 * j + 1) = true := by
  cases pol <;> fin_cases j <;> simp [oddCode]

theorem oddCode_bit_even (x : Byte) (pol : Polarity) (j : Fin 4) :
    (oddCode x pol).getLsbD (2 * j) = polarityBit pol (x.getLsbD (2 * j)) := by
  cases pol <;> fin_cases j <;> simp [oddCode, polarityBit]

theorem evenCode_bit_odd (x : Byte) (pol : Polarity) (j : Fin 4) : (evenCode x pol).getLsbD (2 * j + 1) = true := by
  fin_cases j <;> simp [evenCode]

/-- `Rev2` moves the two bits of group `j` to group `3 - j` (43 R198). -/
theorem rev2_bit_even (x : Byte) (j : Fin 4) : (rev2 x).getLsbD (2 * j) = x.getLsbD (6 - 2 * j) := by
  fin_cases j <;> simp [rev2]

theorem evenBits_bit_odd (x : Byte) (pol : Polarity) (j : Fin 4) :
    (evenBits x pol).getLsbD (7 - 2 * j) = polarityBit pol (x.getLsbD (7 - 2 * j)) := by
  cases pol <;> fin_cases j <;> simp [evenBits, polarityBit]

theorem evenCode_bit_even (x : Byte) (pol : Polarity) (j : Fin 4) :
    (evenCode x pol).getLsbD (2 * j) = polarityBit pol (x.getLsbD (7 - 2 * j)) := by
  calc (evenCode x pol).getLsbD (2 * j)
    _ = (rev2 (evenBits x pol >>> 1)).getLsbD (2 * j) := by fin_cases j <;> simp [evenCode]
    _ = (evenBits x pol >>> 1).getLsbD (6 - 2 * j) := rev2_bit_even _ j
    _ = (evenBits x pol).getLsbD (7 - 2 * j) := by
      rw [BitVec.getLsbD_ushiftRight, show 1 + (6 - 2 * (j : Nat)) = 7 - 2 * j by omega]
    _ = polarityBit pol (x.getLsbD (7 - 2 * j)) := evenBits_bit_odd x pol j

/-! ## Sections (43 R193, R195, R197) -/

theorem oddSection_replicate (n : Nat) (x fixed : Byte) (pol : Polarity) :
    oddSection n (some (List.replicate n x)) fixed pol = List.replicate n (oddCode x pol) := by
  simp [oddSection]

theorem evenSection_replicate (n : Nat) (x fixed : Byte) (pol : Polarity) :
    evenSection n (some (List.replicate n x)) fixed pol = List.replicate n (evenCode x pol) := by
  simp [evenSection]

/-- For a row of the panel the scan position is not negative, so SCAN_NEG_DIV has no say (43 R195). -/
theorem scanPos_row (nd : NegDiv) {lines row : Nat} (h : row < lines) :
    scanPos nd lines row = ((lines - row - 1) / 4 : Nat) := by
  have hnum : (lines : Int) - row - 1 = (lines - row - 1 : Nat) := by omega
  rw [scanPos, hnum]
  cases nd with
  | floor => exact (Int.ofNat_fdiv _ _).symm
  | trunc => exact (Int.ofNat_tdiv _ _).symm

theorem scanSelect_cases (row : Nat) :
    scanSelect row = 0x03 ∨ scanSelect row = 0x0c ∨ scanSelect row = 0x30 ∨ scanSelect row = 0xc0 := by
  have hmod : row % 4 = 0 ∨ row % 4 = 1 ∨ row % 4 = 2 ∨ row % 4 = 3 := by omega
  unfold scanSelect
  rcases hmod with h | h | h | h <;> rw [h] <;> decide

/-! ## The places of the sections in the payload (30 R96) -/

section
variable {pl : LinePayload} {m n k : Nat}

theorem payloadBytes_odd (hk : k < pl.odd.length) : (payloadBytes pl)[2 + k]? = pl.odd[k]? := by
  rw [payloadBytes, Nat.add_comm, List.getElem?_cons_succ, List.getElem?_cons_succ, List.append_assoc,
    List.getElem?_append_left hk]

theorem payloadBytes_scan (hodd : pl.odd.length = m) (hk : k < pl.scan.length) :
    (payloadBytes pl)[2 + m + k]? = pl.scan[k]? := by
  rw [payloadBytes, Nat.add_assoc, Nat.add_comm, List.getElem?_cons_succ, List.getElem?_cons_succ, List.append_assoc, ← hodd,
    List.getElem?_append_right (Nat.le_add_right _ _), Nat.add_sub_cancel_left, List.getElem?_append_left hk]

theorem payloadBytes_even (hodd : pl.odd.length = m) (hscan : pl.scan.length = n) :
    (payloadBytes pl)[2 + m + n + k]? = pl.even[k]? := by
  rw [payloadBytes, Nat.add_assoc, Nat.add_assoc, Nat.add_comm, List.getElem?_cons_succ, List.getElem?_cons_succ,
    ← Nat.add_assoc, ← hodd, ← hscan, ← List.length_append, List.getElem?_append_right (Nat.le_add_right _ _),
    Nat.add_sub_cancel_left]

end

section
variable {p : PanelProfile} {data : Option (List Byte)} (hdata : dataFits p data = true) (cfg : Cfg) (row : LineRow)
  (fixed : Byte) (pol : Polarity) (border : Byte) {k : Nat}
include hdata

theorem lineBytes_odd (hk : k < p.bytesPerLine) :
    (lineBytes cfg p row data fixed pol border)[2 + k]? = (oddSection p.bytesPerLine data fixed pol)[k]? :=
  payloadBytes_odd (hk.trans_eq (oddSection_length hdata fixed pol).symm)

theorem lineBytes_scan (hk : k < p.bytesPerScan) :
    (lineBytes cfg p row data fixed pol border)[2 + p.bytesPerLine + k]? =
      some (scanByte cfg.scanNegDiv p.linesPerDisplay row k) := by
  calc (lineBytes cfg p row data fixed pol border)[2 + p.bytesPerLine + k]?
    _ = (scanSection cfg.scanNegDiv p.linesPerDisplay p.bytesPerScan row)[k]? :=
      payloadBytes_scan (oddSection_length hdata fixed pol) (hk.trans_eq (scanSection_length _ _ _ _).symm)
    _ = some (scanByte cfg.scanNegDiv p.linesPerDisplay row k) := by
      rw [scanSection, List.getElem?_map, List.getElem?_range hk, Option.map_some]

theorem lineBytes_even :
    (lineBytes cfg p row data fixed pol border)[2 + p.bytesPerLine + p.bytesPerScan + k]? =
      (evenSection p.bytesPerLine data fixed pol)[k]? :=
  payloadBytes_even (oddSection_length hdata fixed pol) (scanSection_length _ _ _ _)

end

/-! ## LINE_DATA's test of its data, and what it leaves in `LB` (43 R190, R201) -/

theorem dataFits_iff {p : PanelProfile} {data : Option (List Byte)} :
    dataFits p data = true ↔ ∀ d, data = some d → d.length = p.bytesPerLine := by
  cases data <;> simp [dataFits]

/-- What a line writes into `LB` reads back as its whole payload (43 R201). -/
theorem readList_line_payload {p : PanelProfile} {data : Option (List Byte)} (hdata : dataFits p data = true) (m : Memory)
    (cfg : Cfg) (row : LineRow) (fixed : Byte) (pol : Polarity) (border : Byte) :
    Memory.readList (Memory.writeList m 0 (lineBytes cfg p row data fixed pol border)) 0 (payloadLength p) =
      some (lineBytes cfg p row data fixed pol border) :=
  lineBytes_length hdata cfg row fixed pol border ▸ Memory.readList_writeList m 0 _

/-- A row of the wrong length is refused (43 R190). -/
theorem execLineData_badRowLength {s : State} {p : PanelProfile} {d : List Byte} (hp : s.profile = some p)
    (hd : d.length ≠ p.bytesPerLine) (row : LineRow) (fixed : Byte) (pol : Polarity) (border : Byte) :
    execLineData row (some d) fixed pol border s = .refused .badRowLength := by
  rw [execLineData, withProfile_of hp, if_pos]
  simpa [dataFits] using hd

end Sys2Proof.Machine
end

section
/-! Proofs of the statements of the family 43_line_encoder.md. -/

namespace Sys2Proof.Machine

/-- Settles O41: the refusal is LINE_DATA's first test; else `LB` is the old one with the payload written from address 0. -/
theorem lineDataFillsBuffer : Obligations.LineDataFillsBuffer := by
  intro s p row data fixed pol border hp hlb
  constructor
  · rintro ⟨d, rfl, hd⟩
    exact execLineData_badRowLength hp hd row fixed pol border
  · intro hdata
    have hfits := dataFits_iff.2 hdata
    exact ⟨_, readList_line_payload hfits s.lb s.cfg row fixed pol border,
      fun a ha => read_line_beyond_payload hfits ha s.lb s.cfg row fixed pol border,
      execLineData_next.2 ⟨p, hp, hfits, hlb, rfl⟩⟩

/-- Settles O42: the three steps of a Line in progress, which send what LINE_DATA has written; the move of the operation after
the disable leaves the trace and the transport. -/
theorem lineIsFourEvents : Obligations.LineIsFourEvents := by
  intro s t1 p row data fixed pol border hp he
  obtain ⟨q, hq, hfits, -, rfl⟩ := execLineData_next.1 he
  obtain rfl : p = q := Option.some.inj (hp.symm.trans hq)
  have hread := readList_line_payload hfits s.lb s.cfg row fixed pol border
  refine ⟨_, _, step_line_send rfl hp hread, step_line_outputEnable rfl, ?_, rfl, rfl, fetch_line (phase := .disable) rfl,
    fun t4 h4 => ?_⟩
  · simp [State.emit]
  · rw [step_line_disable rfl] at h4
    rw [advanceOperation_frame h4]
    exact ⟨rfl, rfl, rfl⟩

/-- Settles O43: each section of the payload at its place, and its byte there. -/
theorem payloadLayout : Obligations.PayloadLayout := by
  intro cfg p row data fixed pol border hdata
  have hfits := dataFits_iff.2 hdata
  refine ⟨lineBytes_length hfits cfg row fixed pol border, rfl, rfl, fun k hk => ?_,
    fun k hk => lineBytes_scan hfits cfg row fixed pol border hk⟩
  rw [lineBytes_odd hfits cfg row fixed pol border hk, lineBytes_even hfits cfg row fixed pol border]
  constructor
  · rintro d rfl
    have hlen := hdata d rfl
    simp only [oddSection, evenSection, List.getElem?_map, List.getElem?_reverse (hlen ▸ hk), hlen, and_self]
  · rintro rfl
    simp only [oddSection, evenSection, List.getElem?_replicate_of_lt hk, and_self]

/-- Settles O45: the scan position of a row of the panel is the floor under both readings. -/
theorem scanSelectsOneRow : Obligations.ScanSelectsOneRow := by
  intro nd bps row hrow
  refine ⟨by omega, fun k _ => ?_, scanSelect_cases row⟩
  simp only [scanByte_row, scanPos_row nd hrow, Nat.cast_inj, scanSelect]

/-- Settles O47: a uniform row has a uniform section of its byte's code. -/
theorem uniformRows : Obligations.UniformRows := by
  intro n fixed
  simp only [oddSection_replicate, evenSection_replicate]
  exact ⟨rfl, rfl, rfl, rfl, rfl, rfl, rfl, rfl⟩

/-- Settles O44: the codes bit by bit, under each polarity. -/
theorem pixelCodeBits : Obligations.PixelCodeBits := fun x => ⟨rfl, rfl, fun j =>
  ⟨oddCode_bit_odd x .normal j, oddCode_bit_odd x .inverse j, oddCode_bit_even x .normal j, oddCode_bit_even x .inverse j,
    evenCode_bit_odd x .normal j, evenCode_bit_odd x .inverse j, evenCode_bit_even x .normal j,
    evenCode_bit_even x .inverse j⟩⟩

end Sys2Proof.Machine
end

section
/-! SUPPORT. What an event does to the pins and to the switch of the transport, and the answers of the oracle where they are listed. -/

namespace Sys2Proof.Machine

/-! ## The pin latches (44 R211) -/

theorem PinLatches.get_set_same (l : PinLatches) (p : OutPin) (b : Bit) : (l.set p b).get p = some b := by
  cases p <;> rfl

theorem PinLatches.get_set_of_ne (l : PinLatches) {p q : OutPin} (b : Bit) (h : q ≠ p) : (l.set p b).get q = l.get q := by
  cases p <;> cases q
  case panelOn.panelOn | border.border | discharge.discharge | reset.reset => exact absurd rfl h
  all_goals rfl

/-! ## What an event writes besides the trace and the sampled values (44 R223) -/

/-- `pin_out` after an event (44 R211). -/
def pinsAfter (i : Instr) (l : PinLatches) : PinLatches :=
  match i with
  | .gpioWrite p b => l.set p b
  | _ => l

theorem pinsAfter_of_not_gpioWrite {i : Instr} (h : ∀ p b, i ≠ .gpioWrite p b) (l : PinLatches) : pinsAfter i l = l := by
  unfold pinsAfter
  split
  · exact absurd rfl (h _ _)
  · rfl

theorem xportAfter_of_not_switch {i : Instr} (hon : i ≠ .xportEnable) (hoff : i ≠ .xportDisable) (x : Option Bool) :
    xportAfter i x = x := by
  unfold xportAfter
  split
  · exact absurd rfl hon
  · exact absurd rfl hoff
  · rfl

theorem exec_event_pinOut {i : Instr} {s u : State} (hi : isEvent i = true) (h : exec i s = .next u) :
    u.pinOut = pinsAfter i s.pinOut := by
  cases i
  case openPanel | close | setTemperature | status | begin | endPower | clear | paint | lineData => cases hi
  all_goals cases h; rfl

/-! ## Listed answers (44 R222) -/

theorem askBusy_listed {o : Oracle} {b : Bit} {rest : List Bit} (h : o.busy = b :: rest) : o.askBusy = b := by
  simp [Oracle.askBusy, h]

theorem afterBusy_listed {o : Oracle} {b : Bit} {rest : List Bit} (h : o.busy = b :: rest) :
    o.afterBusy = { o with busy := rest, draws := o.draws + 1 } := by
  simp [Oracle.afterBusy, h]

theorem askTimer_listed {o : Oracle} {n : Nat} {rest : List Nat} (h : o.timer = n :: rest) : o.askTimer = n := by
  simp [Oracle.askTimer, h]

theorem askTimerCreate_listed {o : Oracle} {b : Bool} {rest : List Bool} (h : o.timerCreate = b :: rest) :
    o.askTimerCreate = b := by
  simp [Oracle.askTimerCreate, h]

/-- A transport read draws the listed bytes and leaves those after them. -/
theorem drawXport_listed {o : Oracle} {r rest : List Byte} (h : o.xport = r ++ rest) :
    (Oracle.drawXport r.length o).1 = r ∧ (Oracle.drawXport r.length o).2.xport = rest := by
  induction r generalizing o with
  | nil => exact ⟨rfl, h⟩
  | cons b r ih =>
    obtain ⟨hbytes, hrest⟩ := ih (o := { o with xport := o.xport.tail, draws := o.draws + 1 }) (by simp [h])
    exact ⟨List.cons_eq_cons.2 ⟨by simp [h], hbytes⟩, hrest⟩

end Sys2Proof.Machine
end

section
/-! Proofs of the statements of the family 44_interface_ops.md. -/

namespace Sys2Proof.Machine

/-- Settles O53: an event that is no LINE_DATA writes the latches as `pinsAfter` says and the switch as `xportAfter` says. -/
theorem eventFrame : Obligations.EventFrame := by
  intro i s t hi hline h
  have hevent : isEvent i = true :=
    (isEvent_or_lineData hi).resolve_right fun ⟨row, data, fixed, pol, border, heq⟩ => hline row data fixed pol border heq
  have hpins := exec_event_pinOut hevent h
  obtain ⟨tr, o, l, m, rfl, -⟩ := exec_event hevent h
  refine ⟨rfl, fun hne => hpins.trans (pinsAfter_of_not_gpioWrite hne s.pinOut), ?_,
    fun hon hoff => xportAfter_of_not_switch hon hoff s.xportEn, ?_, ?_⟩
  · rintro p b rfl
    exact hpins
  · rintro rfl
    rfl
  · rintro rfl
    rfl

/-- Settles O48: one command after the other, each a `State.cogWrite` of its own name. -/
theorem cogWriteCommands : Obligations.CogWriteCommands := by
  refine fun s => ⟨?_, fun mask => rfl⟩
  simp only [List.forall_mem_cons]
  exact ⟨rfl, rfl, rfl, rfl, rfl, rfl, rfl, rfl, rfl, rfl, rfl, rfl, rfl, rfl, rfl, rfl, List.forall_mem_nil _⟩

/-- Settles O50: a write sets its own latch; a read keeps its answer as a sample only at `busy`. -/
theorem gpioEvents : Obligations.GpioEvents := by
  refine fun s => ⟨fun p m => rfl, fun p b => ?write, fun b rest hb => ?listed, ⟨_, _, rfl⟩, fun p hp => ?other⟩
  case write =>
    exact ⟨s.pinOut.set p b, rfl, s.pinOut.get_set_same p b, fun q hq => s.pinOut.get_set_of_ne b hq⟩
  case listed =>
    simp only [exec, execGpioRead, askBusy_listed hb, afterBusy_listed hb, if_true, State.emit]
  case other =>
    refine ⟨s.oracle.askBusy, s.oracle.afterBusy, ?_⟩
    simp only [exec, execGpioRead, if_neg hp, State.emit]

/-- Settles O51: a read's answer is what the oracle draws, `n` bytes, the listed ones where `n` are listed. -/
theorem transportEvents : Obligations.TransportEvents := by
  refine fun s => ⟨rfl, rfl, fun bytes => rfl, fun cmd n => ⟨_, _, drawXport_length n s.oracle, ?_, rfl⟩⟩
  rintro r rest hlist rfl
  exact drawXport_listed hlist

/-- Settles O52: the two events that ask take the oracle's answer; TimerQuery alone keeps it as a sample. -/
theorem delayAndTimerEvents : Obligations.DelayAndTimerEvents := fun s =>
  ⟨fun _ => rfl, fun _ => rfl, fun _ => rfl, ⟨s.oracle.askTimerCreate, fun _ _ h => askTimerCreate_listed h, rfl⟩,
    ⟨s.oracle.askTimer, fun _ _ h => askTimer_listed h, rfl⟩⟩

end Sys2Proof.Machine
end
